-- ==== Sys2Proof/Word.lean ====
section
/-! DEFINITION. The value types of the hardware (spec 00_scope.md R6, R7): every register value, memory cell, address and
field is unsigned. -/

namespace Sys2Proof

/-- A memory cell, a V register or a timer: 8 bits, bit 7 most significant (R6, R12, R18, R20). -/
abbrev Byte := BitVec 8

/-- An instruction word, I, PC or a stack entry: 16 bits, bit 15 most significant (R6, R14, R15, R17). -/
abbrev Word := BitVec 16

/-- The field NNN, 12 bits (R6, R48). -/
abbrev Addr12 := BitVec 12

/-- The number of a general register V0 .. VF: the field X or Y (R12, R47). -/
abbrev Reg := Fin 16

/-- The field N: the number of rows of a sprite, 0 .. 15 (R48). -/
abbrev RowCount := Fin 16

end Sys2Proof
end

