-- ==== Sys2Proof/Syntax.lean ====
section
/-! DEFINITION. The instructions: one constructor per row of spec/opcode_table.json (30_encoding.md R50), in the table's order,
named by the row's code pattern (R55). -/

namespace Sys2Proof

/-- The 34 operations and the `UNKNOWN` outcome. `x` and `y` are the register numbers X and Y, `nn`, `nnn` and `n` the
immediates NN, NNN and N (R47, R48). -/
inductive Instr where
  /-- 00E0: clear the framebuffer (R96). -/
  | op00E0
  /-- 00EE: return from subroutine (R69). -/
  | op00EE
  /-- 1NNN: jump to NNN (R70). -/
  | op1NNN (nnn : Addr12)
  /-- 2NNN: call the subroutine at NNN (R71). -/
  | op2NNN (nnn : Addr12)
  /-- 3XNN: skip if V[X] = NN (R72). -/
  | op3XNN (x : Reg) (nn : Byte)
  /-- 4XNN: skip if V[X] ≠ NN (R73). -/
  | op4XNN (x : Reg) (nn : Byte)
  /-- 5XY0: skip if V[X] = V[Y] (R74). -/
  | op5XY0 (x y : Reg)
  /-- 6XNN: V[X] <- NN (R77). -/
  | op6XNN (x : Reg) (nn : Byte)
  /-- 7XNN: V[X] <- V[X] + NN mod 256 (R78). -/
  | op7XNN (x : Reg) (nn : Byte)
  /-- 8XY0: V[X] <- V[Y] (R79). -/
  | op8XY0 (x y : Reg)
  /-- 8XY1: V[X] <- V[X] or V[Y] (R80). -/
  | op8XY1 (x y : Reg)
  /-- 8XY2: V[X] <- V[X] and V[Y] (R81). -/
  | op8XY2 (x y : Reg)
  /-- 8XY3: V[X] <- V[X] xor V[Y] (R82). -/
  | op8XY3 (x y : Reg)
  /-- 8XY4: add with carry flag (R83). -/
  | op8XY4 (x y : Reg)
  /-- 8XY5: V[X] - V[Y] with no-borrow flag (R84). -/
  | op8XY5 (x y : Reg)
  /-- 8XY6: shift V[Y] right into V[X] and V[Y] (R85). -/
  | op8XY6 (x y : Reg)
  /-- 8XY7: V[Y] - V[X] with no-borrow flag (R86). -/
  | op8XY7 (x y : Reg)
  /-- 8XYE: shift V[Y] left into V[X] and V[Y] (R87). -/
  | op8XYE (x y : Reg)
  /-- 9XY0: skip if V[X] ≠ V[Y] (R75). -/
  | op9XY0 (x y : Reg)
  /-- ANNN: I <- NNN (R90). -/
  | opANNN (nnn : Addr12)
  /-- BNNN: jump to NNN + V[0] (R76). -/
  | opBNNN (nnn : Addr12)
  /-- CXNN: V[X] <- random byte and NN (R88). -/
  | opCXNN (x : Reg) (nn : Byte)
  /-- DXYN: draw a sprite of N rows (R97). -/
  | opDXYN (x y : Reg) (n : RowCount)
  /-- EX9E: skip if key V[X] is pressed (R99). -/
  | opEX9E (x : Reg)
  /-- EXA1: skip if key V[X] is not pressed (R100). -/
  | opEXA1 (x : Reg)
  /-- FX07: V[X] <- DT (R101). -/
  | opFX07 (x : Reg)
  /-- FX0A: wait for a key, V[X] <- its index (R102). -/
  | opFX0A (x : Reg)
  /-- FX15: DT <- V[X] (R103). -/
  | opFX15 (x : Reg)
  /-- FX18: ST <- V[X] (R104). -/
  | opFX18 (x : Reg)
  /-- FX1E: I <- I + V[X] mod 65536 (R91). -/
  | opFX1E (x : Reg)
  /-- FX29: I <- 5 · V[X] (R92). -/
  | opFX29 (x : Reg)
  /-- FX33: store the decimal digits of V[X] (R93). -/
  | opFX33 (x : Reg)
  /-- FX55: store V[0..X] at I (R94). -/
  | opFX55 (x : Reg)
  /-- FX65: load V[0..X] from I (R95). -/
  | opFX65 (x : Reg)
  /-- The row "other": a word that is none of the 34 patterns (R66). It carries its word, so that encoding it gives the word
  back; no rule reads the word. -/
  | unknown (w : Word)
  deriving DecidableEq, Repr

end Sys2Proof
end

