-- ==== Sys2Proof/WellFormed.lean ====
section
/-! DEFINITION. Which terms of `Instr` are instructions of the hardware. The types of `Syntax` bound every operand (X, Y, N four
bits, NN eight, NNN twelve), so the one check left is on `unknown`: its word must be none of the 34 patterns. It is written
from the list of unknown words (30_encoding.md R52), not from the decoder. -/

namespace Sys2Proof

/-- The words that are not instructions, family by family (R52). -/
def isUnknownWord (w : Word) : Bool :=
  let low := w.extractLsb' 0 8
  let sub := w.extractLsb' 0 4
  match (w.extractLsb' 12 4).toNat with
  | 0x0 => w != 0x00E0 && w != 0x00EE
  | 0x5 => sub != 0
  | 0x8 => [0x8#4, 0x9#4, 0xA#4, 0xB#4, 0xC#4, 0xD#4, 0xF#4].contains sub
  | 0x9 => sub != 0
  | 0xE => !([0x9E#8, 0xA1#8].contains low)
  | 0xF => !([0x07#8, 0x0A#8, 0x15#8, 0x18#8, 0x1E#8, 0x29#8, 0x33#8, 0x55#8, 0x65#8].contains low)
  | _ => false

/-- Well-formed instructions: any operands for the 34 operations, and `unknown` with a word of R52 only. -/
def Instr.wf : Instr → Bool
  | .op00E0 => true
  | .op00EE => true
  | .op1NNN _ => true
  | .op2NNN _ => true
  | .op3XNN _ _ => true
  | .op4XNN _ _ => true
  | .op5XY0 _ _ => true
  | .op6XNN _ _ => true
  | .op7XNN _ _ => true
  | .op8XY0 _ _ => true
  | .op8XY1 _ _ => true
  | .op8XY2 _ _ => true
  | .op8XY3 _ _ => true
  | .op8XY4 _ _ => true
  | .op8XY5 _ _ => true
  | .op8XY6 _ _ => true
  | .op8XY7 _ _ => true
  | .op8XYE _ _ => true
  | .op9XY0 _ _ => true
  | .opANNN _ => true
  | .opBNNN _ => true
  | .opCXNN _ _ => true
  | .opDXYN _ _ _ => true
  | .opEX9E _ => true
  | .opEXA1 _ => true
  | .opFX07 _ => true
  | .opFX0A _ => true
  | .opFX15 _ => true
  | .opFX18 _ => true
  | .opFX1E _ => true
  | .opFX29 _ => true
  | .opFX33 _ => true
  | .opFX55 _ => true
  | .opFX65 _ => true
  | .unknown w => isUnknownWord w

end Sys2Proof
end

