-- ==== Sys2Proof/Decode.lean ====
section
/-! DEFINITION. Decoding (30_encoding.md R46 to R49), total on every list of bytes, and after it the encoder and the opcode map
(R50), each written from the spec's own table. -/

namespace Sys2Proof

/-- The primary family, `w[15:12]` (R6). -/
def fieldFamily (w : Word) : BitVec 4 := w.extractLsb' 12 4

/-- `X = w[11:8]` (R6). -/
def fieldX (w : Word) : Reg := (w.extractLsb' 8 4).toFin

/-- `Y = w[7:4]` (R6). -/
def fieldY (w : Word) : Reg := (w.extractLsb' 4 4).toFin

/-- `N = w[3:0]` as the row count of DXYN (R6). -/
def fieldN (w : Word) : RowCount := (w.extractLsb' 0 4).toFin

/-- The sub-opcode of the families 5, 8 and 9, `w[3:0]` (R47). -/
def fieldSub (w : Word) : BitVec 4 := w.extractLsb' 0 4

/-- `NN = w[7:0]`, and the sub-opcode of the families E and F (R6, R47). -/
def fieldNN (w : Word) : Byte := w.extractLsb' 0 8

/-- `NNN = w[11:0]` (R6). -/
def fieldNNN (w : Word) : Addr12 := w.extractLsb' 0 12

/-- Family 0: all four digits are literal (R49). -/
def decode0 (w : Word) : Instr :=
  if w = 0x00E0 then .op00E0 else if w = 0x00EE then .op00EE else .unknown w

/-- Family 8 dispatches on the low nibble (R49). -/
def decode8 (w : Word) : Instr :=
  match (fieldSub w).toNat with
  | 0x0 => .op8XY0 (fieldX w) (fieldY w)
  | 0x1 => .op8XY1 (fieldX w) (fieldY w)
  | 0x2 => .op8XY2 (fieldX w) (fieldY w)
  | 0x3 => .op8XY3 (fieldX w) (fieldY w)
  | 0x4 => .op8XY4 (fieldX w) (fieldY w)
  | 0x5 => .op8XY5 (fieldX w) (fieldY w)
  | 0x6 => .op8XY6 (fieldX w) (fieldY w)
  | 0x7 => .op8XY7 (fieldX w) (fieldY w)
  | 0xE => .op8XYE (fieldX w) (fieldY w)
  | _ => .unknown w

/-- Family E dispatches on the low byte (R49). -/
def decodeE (w : Word) : Instr :=
  if fieldNN w = 0x9E then .opEX9E (fieldX w)
  else if fieldNN w = 0xA1 then .opEXA1 (fieldX w)
  else .unknown w

/-- Family F dispatches on the low byte (R49). -/
def decodeF (w : Word) : Instr :=
  if fieldNN w = 0x07 then .opFX07 (fieldX w)
  else if fieldNN w = 0x0A then .opFX0A (fieldX w)
  else if fieldNN w = 0x15 then .opFX15 (fieldX w)
  else if fieldNN w = 0x18 then .opFX18 (fieldX w)
  else if fieldNN w = 0x1E then .opFX1E (fieldX w)
  else if fieldNN w = 0x29 then .opFX29 (fieldX w)
  else if fieldNN w = 0x33 then .opFX33 (fieldX w)
  else if fieldNN w = 0x55 then .opFX55 (fieldX w)
  else if fieldNN w = 0x65 then .opFX65 (fieldX w)
  else .unknown w

/-- The decode procedure, a total function of the word alone (R49, R61). -/
def decodeWord (w : Word) : Instr :=
  match (fieldFamily w).toNat with
  | 0x0 => decode0 w
  | 0x1 => .op1NNN (fieldNNN w)
  | 0x2 => .op2NNN (fieldNNN w)
  | 0x3 => .op3XNN (fieldX w) (fieldNN w)
  | 0x4 => .op4XNN (fieldX w) (fieldNN w)
  | 0x5 => if fieldSub w = 0 then .op5XY0 (fieldX w) (fieldY w) else .unknown w
  | 0x6 => .op6XNN (fieldX w) (fieldNN w)
  | 0x7 => .op7XNN (fieldX w) (fieldNN w)
  | 0x8 => decode8 w
  | 0x9 => if fieldSub w = 0 then .op9XY0 (fieldX w) (fieldY w) else .unknown w
  | 0xA => .opANNN (fieldNNN w)
  | 0xB => .opBNNN (fieldNNN w)
  | 0xC => .opCXNN (fieldX w) (fieldNN w)
  | 0xD => .opDXYN (fieldX w) (fieldY w) (fieldN w)
  | 0xE => decodeE w
  | 0xF => decodeF w
  | _ => .unknown w

/-- Why a list of bytes holds no instruction. Every word decodes (R49), so there is one reason. -/
inductive DecodeError where
  /-- Fewer than the two bytes of an instruction (R46). -/
  | truncated
  deriving DecidableEq, Repr

/-- The word of two consecutive bytes, big-endian: the byte at the lower address holds `w[15:8]` (R32). -/
def wordOfBytes (hi lo : Byte) : Word := hi ++ lo

/-- The two bytes of a word in the order memory holds them (R32, R47). -/
def bytesOfWord (w : Word) : List Byte := [w.extractLsb' 8 8, w.extractLsb' 0 8]

/-- Decode the instruction at the head of a list of bytes and give the rest of the list; an instruction is exactly two bytes
(R46). -/
def decodeBytes : List Byte → Except DecodeError (Instr × List Byte)
  | hi :: lo :: rest => .ok (decodeWord (wordOfBytes hi lo), rest)
  | _ => .error .truncated

/-- The decoder, asked as spec/opcode_table.json numbers an instruction's bits (one 16-bit word, bit 0 least significant): the
bits above `nbits` are 0, and an instruction has no more than 16. -/
def decodeTableWord (nbits w : Nat) : Option Instr :=
  if nbits ≤ 16 then
    match decodeBytes (bytesOfWord (BitVec.ofNat 16 (w % 2 ^ nbits))) with
    | .ok (i, _) => some i
    | .error _ => none
  else none

/-! ### The encoder, format by format (R47) -/

/-- A register number or row count as the four bits of its field. -/
def nibble (x : Fin 16) : BitVec 4 := BitVec.ofFin x

/-- Format A: family, NNN. -/
def encodeA (family : BitVec 4) (nnn : Addr12) : Word := family ++ nnn

/-- Format XI: family, X, NN. -/
def encodeXI (family : BitVec 4) (x : Reg) (nn : Byte) : Word := family ++ nibble x ++ nn

/-- Format XY: family, X, Y, sub-opcode. -/
def encodeXY (family : BitVec 4) (x y : Reg) (sub : BitVec 4) : Word := family ++ nibble x ++ nibble y ++ sub

/-- Format XYN: 0xD, X, Y, N. -/
def encodeXYN (x y : Reg) (n : RowCount) : Word := 0xD#4 ++ nibble x ++ nibble y ++ nibble n

/-- Format XS: family, X, sub-opcode byte. -/
def encodeXS (family : BitVec 4) (x : Reg) (sub : Byte) : Word := family ++ nibble x ++ sub

/-- The word of an instruction, from the formats and the matches of the opcode map (R47, R50). -/
def encode : Instr → Word
  | .op00E0 => 0x00E0
  | .op00EE => 0x00EE
  | .op1NNN nnn => encodeA 0x1 nnn
  | .op2NNN nnn => encodeA 0x2 nnn
  | .op3XNN x nn => encodeXI 0x3 x nn
  | .op4XNN x nn => encodeXI 0x4 x nn
  | .op5XY0 x y => encodeXY 0x5 x y 0x0
  | .op6XNN x nn => encodeXI 0x6 x nn
  | .op7XNN x nn => encodeXI 0x7 x nn
  | .op8XY0 x y => encodeXY 0x8 x y 0x0
  | .op8XY1 x y => encodeXY 0x8 x y 0x1
  | .op8XY2 x y => encodeXY 0x8 x y 0x2
  | .op8XY3 x y => encodeXY 0x8 x y 0x3
  | .op8XY4 x y => encodeXY 0x8 x y 0x4
  | .op8XY5 x y => encodeXY 0x8 x y 0x5
  | .op8XY6 x y => encodeXY 0x8 x y 0x6
  | .op8XY7 x y => encodeXY 0x8 x y 0x7
  | .op8XYE x y => encodeXY 0x8 x y 0xE
  | .op9XY0 x y => encodeXY 0x9 x y 0x0
  | .opANNN nnn => encodeA 0xA nnn
  | .opBNNN nnn => encodeA 0xB nnn
  | .opCXNN x nn => encodeXI 0xC x nn
  | .opDXYN x y n => encodeXYN x y n
  | .opEX9E x => encodeXS 0xE x 0x9E
  | .opEXA1 x => encodeXS 0xE x 0xA1
  | .opFX07 x => encodeXS 0xF x 0x07
  | .opFX0A x => encodeXS 0xF x 0x0A
  | .opFX15 x => encodeXS 0xF x 0x15
  | .opFX18 x => encodeXS 0xF x 0x18
  | .opFX1E x => encodeXS 0xF x 0x1E
  | .opFX29 x => encodeXS 0xF x 0x29
  | .opFX33 x => encodeXS 0xF x 0x33
  | .opFX55 x => encodeXS 0xF x 0x55
  | .opFX65 x => encodeXS 0xF x 0x65
  | .unknown w => w

/-! ### The opcode map (R50) -/

/-- The mask and match of a row: a word `w` is the instruction when `w & mask = match` (R50). -/
structure OpcodeRow where
  mask : Word
  value : Word
  deriving DecidableEq, Repr

/-- The word is the row's instruction (R50). -/
def OpcodeRow.accepts (r : OpcodeRow) (w : Word) : Bool := w &&& r.mask == r.value

/-- The row of an instruction in the opcode map, as the map's columns "mask" and "match" give it (R50). -/
def Instr.row : Instr → OpcodeRow
  | .op00E0 => ⟨0xFFFF, 0x00E0⟩
  | .op00EE => ⟨0xFFFF, 0x00EE⟩
  | .op1NNN _ => ⟨0xF000, 0x1000⟩
  | .op2NNN _ => ⟨0xF000, 0x2000⟩
  | .op3XNN _ _ => ⟨0xF000, 0x3000⟩
  | .op4XNN _ _ => ⟨0xF000, 0x4000⟩
  | .op5XY0 _ _ => ⟨0xF00F, 0x5000⟩
  | .op6XNN _ _ => ⟨0xF000, 0x6000⟩
  | .op7XNN _ _ => ⟨0xF000, 0x7000⟩
  | .op8XY0 _ _ => ⟨0xF00F, 0x8000⟩
  | .op8XY1 _ _ => ⟨0xF00F, 0x8001⟩
  | .op8XY2 _ _ => ⟨0xF00F, 0x8002⟩
  | .op8XY3 _ _ => ⟨0xF00F, 0x8003⟩
  | .op8XY4 _ _ => ⟨0xF00F, 0x8004⟩
  | .op8XY5 _ _ => ⟨0xF00F, 0x8005⟩
  | .op8XY6 _ _ => ⟨0xF00F, 0x8006⟩
  | .op8XY7 _ _ => ⟨0xF00F, 0x8007⟩
  | .op8XYE _ _ => ⟨0xF00F, 0x800E⟩
  | .op9XY0 _ _ => ⟨0xF00F, 0x9000⟩
  | .opANNN _ => ⟨0xF000, 0xA000⟩
  | .opBNNN _ => ⟨0xF000, 0xB000⟩
  | .opCXNN _ _ => ⟨0xF000, 0xC000⟩
  | .opDXYN _ _ _ => ⟨0xF000, 0xD000⟩
  | .opEX9E _ => ⟨0xF0FF, 0xE09E⟩
  | .opEXA1 _ => ⟨0xF0FF, 0xE0A1⟩
  | .opFX07 _ => ⟨0xF0FF, 0xF007⟩
  | .opFX0A _ => ⟨0xF0FF, 0xF00A⟩
  | .opFX15 _ => ⟨0xF0FF, 0xF015⟩
  | .opFX18 _ => ⟨0xF0FF, 0xF018⟩
  | .opFX1E _ => ⟨0xF0FF, 0xF01E⟩
  | .opFX29 _ => ⟨0xF0FF, 0xF029⟩
  | .opFX33 _ => ⟨0xF0FF, 0xF033⟩
  | .opFX55 _ => ⟨0xF0FF, 0xF055⟩
  | .opFX65 _ => ⟨0xF0FF, 0xF065⟩
  | .unknown _ => ⟨0x0000, 0x0000⟩

/-- Rows 1 to 34 of the opcode map, in its order (R50); row 35 is taken only when none of them matches. -/
def opcodeRows : List OpcodeRow :=
  [⟨0xFFFF, 0x00E0⟩, ⟨0xFFFF, 0x00EE⟩, ⟨0xF000, 0x1000⟩, ⟨0xF000, 0x2000⟩, ⟨0xF000, 0x3000⟩, ⟨0xF000, 0x4000⟩] ++
  [⟨0xF00F, 0x5000⟩, ⟨0xF000, 0x6000⟩, ⟨0xF000, 0x7000⟩, ⟨0xF00F, 0x8000⟩, ⟨0xF00F, 0x8001⟩, ⟨0xF00F, 0x8002⟩] ++
  [⟨0xF00F, 0x8003⟩, ⟨0xF00F, 0x8004⟩, ⟨0xF00F, 0x8005⟩, ⟨0xF00F, 0x8006⟩, ⟨0xF00F, 0x8007⟩, ⟨0xF00F, 0x800E⟩] ++
  [⟨0xF00F, 0x9000⟩, ⟨0xF000, 0xA000⟩, ⟨0xF000, 0xB000⟩, ⟨0xF000, 0xC000⟩, ⟨0xF000, 0xD000⟩, ⟨0xF0FF, 0xE09E⟩] ++
  [⟨0xF0FF, 0xE0A1⟩, ⟨0xF0FF, 0xF007⟩, ⟨0xF0FF, 0xF00A⟩, ⟨0xF0FF, 0xF015⟩, ⟨0xF0FF, 0xF018⟩, ⟨0xF0FF, 0xF01E⟩] ++
  [⟨0xF0FF, 0xF029⟩, ⟨0xF0FF, 0xF033⟩, ⟨0xF0FF, 0xF055⟩, ⟨0xF0FF, 0xF065⟩]

end Sys2Proof
end

