-- ==== Sys2Proof/Machine/Flags.lean ====
section
/-! DEFINITION. The values the flag-writing instructions give VF (10_state.md R13) and the results of the arithmetic they go with,
computed over the integers and narrowed at the end (00_scope.md R7, 42_alu.md R89). -/

namespace Sys2Proof.Machine

/-- A flag as the byte VF holds. -/
def flagByte (b : Bool) : Byte := if b then 1 else 0

/-- `(a + b) mod 256` (R78, R83). -/
def addByte (a b : Byte) : Byte := BitVec.ofNat 8 (a.toNat + b.toNat)

/-- `(a - b) mod 256`, the non-negative remainder (R84, R86). -/
def subByte (a b : Byte) : Byte := BitVec.ofInt 8 ((a.toNat : Int) - (b.toNat : Int))

/-- VF after 8XY4: 1 if the sum exceeds 255 (R83). -/
def carryFlag (a b : Byte) : Byte := flagByte (decide (a.toNat + b.toNat > 255))

/-- VF after 8XY5 and 8XY7: 0 if the difference is negative, else 1 (R84, R86). -/
def noBorrowFlag (a b : Byte) : Byte := flagByte (!decide ((a.toNat : Int) - (b.toNat : Int) < 0))

/-- `a >> 1`, logical (R85). -/
def shiftRightByte (a : Byte) : Byte := BitVec.ofNat 8 (a.toNat >>> 1)

/-- VF after 8XY6: the bit shifted out, bit 0 (R85). -/
def shiftedOutRight (a : Byte) : Byte := flagByte (a.getLsbD 0)

/-- `(a << 1) mod 256` (R87). -/
def shiftLeftByte (a : Byte) : Byte := BitVec.ofNat 8 (a.toNat <<< 1)

/-- VF after 8XYE: the bit shifted out, bit 7 (R87). -/
def shiftedOutLeft (a : Byte) : Byte := flagByte (a.getLsbD 7)

/-- VF after DXYN: 1 on a collision (R97). -/
def collisionFlag (collision : Bool) : Byte := flagByte collision

end Sys2Proof.Machine
end

