-- ==== Sys2Proof/Config.lean ====
section
/-! DEFINITION. What is fixed for the machine (spec 00_scope.md R5) and the free values the spec leaves open.
The default of the open parameter FONT is in Sys2Proof/Machine/Font.lean. -/

namespace Sys2Proof.Config

/-- MEM_SIZE (R5, R20). -/
@[simp] abbrev memSize : Nat := 4096

/-- PROG_BASE: where a program is loaded, and PC after load or reset (R5, R130). -/
@[simp] abbrev progBase : Nat := 0x200

/-- ROM_MAX: the longest image `load` accepts (R5, R124). -/
@[simp] abbrev romMax : Nat := 3584

/-- FONT_BASE: the address of glyph 0 (R5, R25). -/
@[simp] abbrev fontBase : Nat := 0

/-- GLYPH_BYTES (R5, R25). -/
@[simp] abbrev glyphBytes : Nat := 5

/-- The size of FONT: 16 glyphs of five bytes (R5, R25). -/
@[simp] abbrev fontSize : Nat := 80

/-- FREE VALUE. The draw `rnd` of CXNN (R5, R57, R88; 92_eei_decisions.md D12; 93_implementation_defined.md U1): any byte, under
no law. It is applied to `State.rndDraws`, the number of draws made before, so that every draw is a value of its own.
DESIGN CHOICE, notes/assumptions/2.md. -/
opaque rnd : Nat → Byte

/-- FREE VALUE. The draw KEY_SELECT of a completing FX0A (R5, R57, R102; D9; U2), before it is reduced to an element of the
set of pressed keys (`Machine.chooseKey`). It is applied to `State.keyDraws`, the number of such draws made before.
DESIGN CHOICE, notes/assumptions/3.md. -/
opaque keySelect : Nat → Nat

end Sys2Proof.Config
end

