-- ==== Sys2Proof/Machine/Framebuffer.lean ====
section
/-! DEFINITION. The framebuffer FB (10_state.md R21) and the drawing of a sprite on it (44_display.md R97). -/

namespace Sys2Proof.Machine

/-- FB: 32 rows of 64 pixels, true for "on" (R21). -/
abbrev Framebuffer := Vector (Vector Bool 64) 32

namespace Framebuffer

/-- All pixels off (R96). -/
def clear : Framebuffer := Vector.replicate 32 (Vector.replicate 64 false)

/-- `FB[x,y]`, column x and row y (R21). -/
def pixel (fb : Framebuffer) (x : Fin 64) (y : Fin 32) : Bool := fb[y][x]

/-- `FB[x,y] <- FB[x,y] ^ 1`. -/
def flip (fb : Framebuffer) (x : Fin 64) (y : Fin 32) : Framebuffer :=
  fb.set y (fb[y].set x (!fb[y][x]))

end Framebuffer

/-- A framebuffer being drawn on, and whether a pixel went from on to off so far (R97). -/
structure Drawing where
  fb : Framebuffer
  collision : Bool
  deriving DecidableEq, Repr

/-- The column of a sprite pixel: coordinates wrap modulo 64 (R97). -/
def wrapX (x : Nat) : Fin 64 := ⟨x % 64, Nat.mod_lt _ (by decide)⟩

/-- The row of a sprite pixel: coordinates wrap modulo 32 (R97). -/
def wrapY (y : Nat) : Fin 32 := ⟨y % 32, Nat.mod_lt _ (by decide)⟩

/-- One sprite pixel whose bit is set: a pixel that was on is a collision, and the pixel is inverted (R97). -/
def Drawing.toggle (d : Drawing) (x : Fin 64) (y : Fin 32) : Drawing :=
  { fb := d.fb.flip x y, collision := d.collision || d.fb.pixel x y }

/-- Column c of one sprite row: bit 7 - c of the row's byte (R97). -/
def Drawing.column (x0 y : Nat) (row : Byte) (d : Drawing) (c : Nat) : Drawing :=
  if row.getLsbD (7 - c) then d.toggle (wrapX (x0 + c)) (wrapY y) else d

/-- One sprite row: its eight columns (R97). -/
def Drawing.row (d : Drawing) (x0 y : Nat) (row : Byte) : Drawing :=
  (List.range 8).foldl (Drawing.column x0 y row) d

/-- The sprite rows, the first at row `y` (R97). -/
def Drawing.rows (d : Drawing) (x0 y : Nat) : List Byte → Drawing
  | [] => d
  | b :: bs => (d.row x0 y b).rows x0 (y + 1) bs

/-- Draw a sprite with its first row and column at (x0, y0): VF's collision starts at 0 (R97). -/
def drawSprite (fb : Framebuffer) (x0 y0 : Nat) (sprite : List Byte) : Drawing :=
  Drawing.rows { fb := fb, collision := false } x0 y0 sprite

end Sys2Proof.Machine
end

