-- ==== Sys2Proof/Machine/Memory.lean ====
section
/-! DEFINITION. The memory MEM (10_state.md R20, 20_memory.md R29) as a list of cells in one canonical form, and the accesses of
bytes and of runs of bytes to it. That an address is in 0 .. 4095 is checked before an access (R36; `Machine/Operands.lean`). -/

namespace Sys2Proof.Machine

/-- MEM: the cells that differ from `Memory.unlisted`, at rising addresses (`Memory.wf`). -/
abbrev Memory := List Host.Cell

namespace Memory

/-- What an address with no entry reads as: the contents after a load of the empty ROM with the default FONT, that is the font
at 0x000 .. 0x04F and 0 elsewhere (10_state.md R27). The font bytes are PRESUMED, notes/assumptions/1.md and 8.md. -/
def unlisted (a : Nat) : Byte := if h : a < 80 then defaultFont[a] else 0

/-- `MEM[a]`. -/
def read : Memory → Nat → Byte
  | [], a => unlisted a
  | (k, b) :: rest, a => if k = a then b else read rest a

/-- The memory without an entry for `a`. -/
def drop (m : Memory) (a : Nat) : Memory := m.filter (fun c => c.1 != a)

/-- The memory with an entry for `a`, which has none, put at its place. -/
def insert : Memory → Nat → Byte → Memory
  | [], a, b => [(a, b)]
  | (k, c) :: rest, a, b => if a < k then (a, b) :: (k, c) :: rest else (k, c) :: insert rest a b

/-- `MEM[a] <- b`, keeping the canonical form: the value an unlisted address reads as has no entry. -/
def write (m : Memory) (a : Nat) (b : Byte) : Memory :=
  if b = unlisted a then m.drop a else (m.drop a).insert a b

/-- The bytes `MEM[a] .. MEM[a+n-1]`, ascending (20_memory.md R33). -/
def readBlock (m : Memory) (a n : Nat) : List Byte := (List.range n).map (fun k => m.read (a + k))

/-- Write the bytes at `a`, `a+1`, ..., ascending (20_memory.md R33). -/
def writeBlock (m : Memory) (a : Nat) : List Byte → Memory
  | [] => m
  | b :: bs => (m.write a b).writeBlock (a + 1) bs

/-- The canonical form: addresses strictly rising and inside 0 .. 4095, and no entry equal to what its address reads as without
one. -/
abbrev wf (m : Memory) : Prop :=
  m.Pairwise (fun c d => c.1 < d.1) ∧ ∀ c ∈ m, c.1 < Config.memSize ∧ c.2 ≠ unlisted c.1

end Memory

end Sys2Proof.Machine
end

