-- ==== Sys2Proof/Machine/State.lean ====
section
/-! DEFINITION. The state of the Machine Core (10_state.md R12 to R27), what a step can end in, and the state after reset. -/

namespace Sys2Proof.Machine

/-- KEYS: 16 key states, true for pressed (R22). -/
abbrev Keypad := Vector Bool 16

/-- No key pressed (R22, R27). -/
def Keypad.released : Keypad := Vector.replicate 16 false

/-- The outcome flags `step()` returns (40_cycle.md R57, R65). -/
structure StepOutcome where
  /-- The step executed 00E0 or DXYN. -/
  fbDirty : Bool
  /-- ST is non-zero after the step's tick. -/
  soundOn : Bool
  /-- The step executed an unknown word. -/
  unknown : Bool
  deriving DecidableEq, Repr

/-- Everything the spec gives the machine, and after it the model's own fields, which hold the inputs and outputs of a step as
plain data. -/
structure State where
  /-- V0 .. VF; VF is the flag register (R12, R13). -/
  v : Vector Byte 16
  /-- The index register I (R14). -/
  i : Word
  /-- The program counter PC (R15). -/
  pc : Word
  /-- The stack pointer SP: how many return addresses are on the stack, 0 .. 16 (R16). -/
  sp : Fin 17
  /-- The stack storage STK; the live entries are those below SP (R17). -/
  stk : Vector Word 16
  /-- The delay timer DT (R18). -/
  dt : Byte
  /-- The sound timer ST (R19). -/
  st : Byte
  /-- The memory MEM (R20). -/
  mem : Memory
  /-- The framebuffer FB (R21). -/
  fb : Framebuffer
  /-- The keypad register KEYS: the vector the host wrote last (R22, 60_exceptions.md R119). -/
  keys : Keypad
  /-- The waiting-for-key flag WAIT (R23). -/
  wait : Bool
  /-- ROMIMG, the image of the last successful `load` (R24). -/
  romImg : List Byte
  /-- LOADED (R24). -/
  loaded : Bool
  /-- The constant FONT, an open parameter (R25, R5); nothing writes it. -/
  font : Vector Byte 80
  /-- MODEL: the outcome of the last step (R57, R65). DESIGN CHOICE, notes/assumptions/5.md. -/
  out : StepOutcome
  /-- MODEL: the host's keypad writes still to come, one for each coming step (R57, R119). DESIGN CHOICE,
  notes/assumptions/4.md. -/
  keyWrites : List Keypad
  /-- MODEL: how many draws `rnd` were made (R57, R88). DESIGN CHOICE, notes/assumptions/2.md. -/
  rndDraws : Nat
  /-- MODEL: how many draws KEY_SELECT were made (R57, R102). DESIGN CHOICE, notes/assumptions/3.md. -/
  keyDraws : Nat
  deriving DecidableEq, Repr

/-- The faults of `step()` (60_exceptions.md R105). Each is the whole result of a step that changes nothing (R67, R113). -/
inductive Fault where
  /-- AddressFault with the lowest out-of-range address. Raised by the fetch (R60, from the source) and by DXYN, FX33, FX55 and
  FX65 (R36, the spec's decision D5). Safe: the machine stops where hardware that went on would be outside the spec. -/
  | addressFault (address : Nat)
  /-- StackOverflow, raised by 2NNN when SP = 16 (R107). Safe: the source's own fault. -/
  | stackOverflow
  /-- StackUnderflow, raised by 00EE when SP = 0 (R108). Safe: the source's own fault. -/
  | stackUnderflow
  /-- KeyIndexFault with V[X], raised by EX9E and EXA1 when V[X] > 15 (R109, the spec's decision D8). Safe: the spec stops where
  the source is silent. -/
  | keyIndexFault (index : Byte)
  deriving DecidableEq, Repr

/-- Why a step has no meaning. -/
inductive Refusal where
  /-- Raised by an arm of `exec` whose instruction has no meaning yet; no arm raises it. Safe: nothing is claimed of it. -/
  | notModelled (mnemonic : String)
  /-- Raised by `step` when LOADED = 0 (40_cycle.md R58, 70_reset_and_hazards.md R128). Safe: the spec has the step refused. -/
  | notLoaded
  deriving DecidableEq, Repr

/-- What a meaning answers. -/
abbrev Result := Host.Outcome State Fault Refusal

/-- The machine right after `load` or `reset()`, with the empty ROM (10_state.md R27, 70_reset_and_hazards.md R124). That ROM is
empty and the core loaded is a DESIGN CHOICE, notes/assumptions/6.md; the font is PRESUMED, notes/assumptions/1.md; the model's
own fields are DESIGN CHOICES, notes/assumptions/2.md to 5.md. -/
def State.reset : State where
  v := Vector.replicate 16 0
  i := 0
  pc := 0x200
  sp := 0
  stk := Vector.replicate 16 0
  dt := 0
  st := 0
  mem := []
  fb := Framebuffer.clear
  keys := Keypad.released
  wait := false
  romImg := []
  loaded := true
  font := defaultFont
  out := ⟨false, false, false⟩
  keyWrites := []
  rndDraws := 0
  keyDraws := 0

end Sys2Proof.Machine
end

