-- ==== Sys2Proof/Machine/Operands.lean ====
section
/-! DEFINITION. The operand forms: registers, immediates, addresses I + k, the register range V0 .. VX, decimal digits and keys. -/

namespace Sys2Proof.Machine

/-- `V[r]` (10_state.md R12). -/
def State.readV (s : State) (r : Reg) : Byte := s.v[r]

/-- V0, the implicit operand of BNNN (R12). -/
def v0 : Reg := 0

/-- VF, the implicit flag register (R13). -/
def vf : Reg := 15

/-- NNN zero-extended to the 16 bits of PC or I (30_encoding.md R48). -/
def addrWord (nnn : Addr12) : Word := nnn.setWidth 16

/-- The base of a data access: I as an integer, to which k is added without any reduction (20_memory.md R37). -/
def State.base (s : State) : Nat := s.i.toNat

/-- The range check on the `n` addresses `base .. base+n-1` of a data access: none if all are in 0 .. 4095 (an empty range always
is), else the lowest one that is not, `max(base, 4096)` (20_memory.md R36). -/
def rangeFault (base n : Nat) : Option Nat :=
  if n = 0 ∨ base + n ≤ Config.memSize then none else some (max base Config.memSize)

/-- `V[0], ..., V[X]`, ascending: the source of FX55 (43_index_memory.md R94). -/
def State.regsUpTo (s : State) (x : Reg) : List Byte := s.v.toList.take (x.val + 1)

/-- The registers after V[0], ..., V[X] took the bytes of memory from `base` on: the target of FX65 (R95). -/
def State.loadRegs (s : State) (x : Reg) (base : Nat) : Vector Byte 16 :=
  Vector.ofFn fun r => if r ≤ x then s.mem.read (base + r.val) else s.v[r]

/-- The decimal digits of a byte: hundreds, tens, ones (43_index_memory.md R93). -/
def decimalDigits (b : Byte) : List Byte :=
  [BitVec.ofNat 8 (b.toNat / 100), BitVec.ofNat 8 (b.toNat / 10 % 10), BitVec.ofNat 8 (b.toNat % 10)]

/-- The address of the font glyph of a digit, `FONT_BASE + GLYPH_BYTES * Vx`, with the whole byte (43_index_memory.md R92). -/
def glyphAddress (b : Byte) : Word := BitVec.ofNat 16 (Config.fontBase + Config.glyphBytes * b.toNat)

/-- The state of the key a byte names, none above 15 (45_keypad_timers.md R99, R100). -/
def keyState (keys : Keypad) (b : Byte) : Option Bool := if h : b.toNat < 16 then some keys[b.toNat] else none

/-- P, the keys pressed in this step's snapshot, ascending (45_keypad_timers.md R102). -/
def pressedKeys (keys : Keypad) : List (Fin 16) := (List.finRange 16).filter fun k => keys[k]

/-- `KEY_SELECT(P)`: some element of P, whichever the draw names; none if P is empty (R102). Every element of P is the choice of
some draw. -/
def chooseKey (pressed : List (Fin 16)) (draw : Nat) : Option (Fin 16) := pressed[draw % pressed.length]?

end Sys2Proof.Machine
end

