-- ==== Sys2Proof/Machine/Ops.lean ====
section
/-! DEFINITION. The named operations the meanings and the step are made of: register, memory, stack, timer and framebuffer
updates, the PC update, raising a fault, fetching a word, and the parts of a step around the execute phase. -/

namespace Sys2Proof.Machine

/-! ### Updates of one piece of state -/

/-- `V[r] <- b` (10_state.md R12). -/
def State.writeV (s : State) (r : Reg) (b : Byte) : State := { s with v := s.v.set r b }

/-- All of V0 .. VF at once. -/
def State.setRegs (s : State) (v : Vector Byte 16) : State := { s with v := v }

/-- `I <- a` (R14). -/
def State.setI (s : State) (a : Word) : State := { s with i := a }

/-- `PC <- a` (R15). -/
def State.setPc (s : State) (a : Word) : State := { s with pc := a }

/-- `SP <- n` (R16). -/
def State.setSp (s : State) (n : Fin 17) : State := { s with sp := n }

/-- `STK[j] <- a` (R17). -/
def State.writeStk (s : State) (j : Fin 16) (a : Word) : State := { s with stk := s.stk.set j a }

/-- `DT <- b` (R18). -/
def State.setDt (s : State) (b : Byte) : State := { s with dt := b }

/-- `ST <- b` (R19). -/
def State.setSt (s : State) (b : Byte) : State := { s with st := b }

/-- MEM after a transfer (R20). -/
def State.setMem (s : State) (m : Memory) : State := { s with mem := m }

/-- FB after a drawing (R21). -/
def State.setFb (s : State) (fb : Framebuffer) : State := { s with fb := fb }

/-- KEYS after a keypad write of the host (R22). -/
def State.setKeys (s : State) (k : Keypad) : State := { s with keys := k }

/-- `WAIT <- b` (R23). -/
def State.setWait (s : State) (b : Bool) : State := { s with wait := b }

/-- The outcome flags of the step (40_cycle.md R65). -/
def State.setOut (s : State) (o : StepOutcome) : State := { s with out := o }

/-- The host's keypad writes still to come. -/
def State.setKeyWrites (s : State) (l : List Keypad) : State := { s with keyWrites := l }

/-- One more draw `rnd` was made. -/
def State.countRnd (s : State) : State := { s with rndDraws := s.rndDraws + 1 }

/-- One more draw KEY_SELECT was made. -/
def State.countKey (s : State) : State := { s with keyDraws := s.keyDraws + 1 }

/-! ### Faults -/

/-- End the step with a fault (60_exceptions.md R105, R113). There is no handler, no saved register and no return from a fault
(R113, R114): the fault is the whole result, and no assignment of the step takes effect (40_cycle.md R67). -/
def raise (f : Fault) : Result := .fault f

/-- Go on only if all of the data addresses `base .. base+n-1` exist (20_memory.md R36). -/
def withRange (base n : Nat) (body : Result) : Result :=
  match rangeFault base n with
  | some a => raise (.addressFault a)
  | none => body

/-! ### The PC update (40_cycle.md R63) -/

/-- `next_pc` by default: `(PC + 2) mod 65536`. -/
def State.advance (s : State) : State := s.setPc (s.pc + 2)

/-- `next_pc` of a skip: `(PC + 4) mod 65536` if its condition holds, else the default. -/
def State.skipIf (s : State) (condition : Bool) : State := s.setPc (if condition then s.pc + 4 else s.pc + 2)

/-! ### The stack (10_state.md R17) -/

/-- Push a return address: none when SP = 16 (41_control_flow.md R71). -/
def State.push (s : State) (a : Word) : Option State :=
  if h : s.sp.val < 16 then some ((s.writeStk ⟨s.sp.val, h⟩ a).setSp ⟨s.sp.val + 1, by omega⟩) else none

/-- Pop a return address: none when SP = 0; the entry keeps its bits (41_control_flow.md R69). -/
def State.pop (s : State) : Option (Word × State) :=
  if h : 0 < s.sp.val then some (s.stk[s.sp.val - 1], s.setSp ⟨s.sp.val - 1, by omega⟩) else none

/-! ### Outcome flags set by an operation (40_cycle.md R65) -/

/-- The operation drew: `fb_dirty <- true`. -/
def State.markDirty (s : State) : State := s.setOut { s.out with fbDirty := true }

/-- The word is unknown: `unknown <- true`. -/
def State.markUnknown (s : State) : State := s.setOut { s.out with unknown := true }

/-! ### The parts of a step around the execute phase (40_cycle.md R59) -/

/-- The start of a step: the host's keypad write for this step, if there is one, replaces KEYS whole (60_exceptions.md R119), and
the outcome flags are computed afresh (40_cycle.md R65). -/
def State.beginStep (s : State) : State :=
  match s.keyWrites with
  | [] => s.setOut ⟨false, false, false⟩
  | k :: rest => ((s.setKeys k).setKeyWrites rest).setOut ⟨false, false, false⟩

/-- Phase 1: the big-endian word at PC, or the address that faults (40_cycle.md R60). -/
def State.fetch (s : State) : Except Nat Word :=
  if s.pc.toNat > 4094 then .error (if s.pc.toNat ≥ 4096 then s.pc.toNat else 4096)
  else .ok (wordOfBytes (s.mem.read s.pc.toNat) (s.mem.read (s.pc.toNat + 1)))

/-- A timer's tick: decremented while non-zero (40_cycle.md R64). -/
def tickTimer (b : Byte) : Byte := if b.toNat > 0 then BitVec.ofNat 8 (b.toNat - 1) else b

/-- Phase 5 and the outcome: both timers tick, then `sound_on` is computed (40_cycle.md R59, R64, R65). -/
def State.endStep (s : State) : State :=
  let t := (s.setDt (tickTimer s.dt)).setSt (tickTimer s.st)
  t.setOut { t.out with soundOn := decide (t.st.toNat > 0) }

/-- What a step makes of the execute phase's answer: phase 5 after a next state, nothing after a fault (40_cycle.md R67). -/
def finishStep : Result → Result
  | .next s => .next s.endStep
  | .fault f => .fault f
  | .refused r => .refused r

/-! ### Placing an instruction -/

/-- The state with the word stored where `step` fetches next, and the core loaded. Where the fetch at PC would fault, PC is set to
PROG_BASE. -/
def State.placeWord (s : State) (w : Word) : State :=
  let t := if s.pc.toNat > 4094 then s.setPc (BitVec.ofNat 16 Config.progBase) else s
  { t.setMem (t.mem.writeBlock t.pc.toNat (bytesOfWord w)) with loaded := true }

end Sys2Proof.Machine
end

