-- ==== Sys2Proof/Machine/Alu.lean ====
section
/-! DEFINITION. Register load, arithmetic, logic, shift and random: 6XNN 7XNN 8XY0 to 8XY7 8XYE CXNN (42_alu.md). Every operand is
read before the first write, and the writes stand in the order of the rule (00_scope.md R10). -/

namespace Sys2Proof.Machine

/-- 6XNN (R77). -/
def exec6XNN (x : Reg) (nn : Byte) (s : State) : Result := .next (s.writeV x nn).advance

/-- 7XNN: no flag (R78). -/
def exec7XNN (x : Reg) (nn : Byte) (s : State) : Result := .next (s.writeV x (addByte (s.readV x) nn)).advance

/-- 8XY0 (R79). -/
def exec8XY0 (x y : Reg) (s : State) : Result := .next (s.writeV x (s.readV y)).advance

/-- 8XY1 (R80). -/
def exec8XY1 (x y : Reg) (s : State) : Result := .next (s.writeV x (s.readV x ||| s.readV y)).advance

/-- 8XY2 (R81). -/
def exec8XY2 (x y : Reg) (s : State) : Result := .next (s.writeV x (s.readV x &&& s.readV y)).advance

/-- 8XY3 (R82). -/
def exec8XY3 (x y : Reg) (s : State) : Result := .next (s.writeV x (s.readV x ^^^ s.readV y)).advance

/-- 8XY4: V[X] first, then VF (R83). -/
def exec8XY4 (x y : Reg) (s : State) : Result :=
  let vx := s.readV x
  let vy := s.readV y
  .next ((s.writeV x (addByte vx vy)).writeV vf (carryFlag vx vy)).advance

/-- 8XY5: V[X] first, then VF (R84). -/
def exec8XY5 (x y : Reg) (s : State) : Result :=
  let vx := s.readV x
  let vy := s.readV y
  .next ((s.writeV x (subByte vx vy)).writeV vf (noBorrowFlag vx vy)).advance

/-- 8XY6: VF first, then V[Y], then V[X] (R85). -/
def exec8XY6 (x y : Reg) (s : State) : Result :=
  let vy := s.readV y
  .next (((s.writeV vf (shiftedOutRight vy)).writeV y (shiftRightByte vy)).writeV x (shiftRightByte vy)).advance

/-- 8XY7: V[X] first, then VF; V[Y] is not written (R86). -/
def exec8XY7 (x y : Reg) (s : State) : Result :=
  let vx := s.readV x
  let vy := s.readV y
  .next ((s.writeV x (subByte vy vx)).writeV vf (noBorrowFlag vy vx)).advance

/-- 8XYE: VF first, then V[Y], then V[X] (R87). -/
def exec8XYE (x y : Reg) (s : State) : Result :=
  let vy := s.readV y
  .next (((s.writeV vf (shiftedOutLeft vy)).writeV y (shiftLeftByte vy)).writeV x (shiftLeftByte vy)).advance

/-- CXNN with the draw `rnd` (R88). -/
def randomUnderMask (rnd : Byte) (x : Reg) (nn : Byte) (s : State) : State := (s.writeV x (rnd &&& nn)).advance

/-- CXNN: the draw is the free value `Config.rnd`, a new one for each executing CXNN (R88; notes/assumptions/2.md). -/
def execCXNN (x : Reg) (nn : Byte) (s : State) : Result :=
  .next (randomUnderMask (Config.rnd s.rndDraws) x nn s.countRnd)

end Sys2Proof.Machine
end

