-- ==== Sys2Proof/Machine/ControlFlow.lean ====
section
/-! DEFINITION. Control transfer: 00EE 1NNN 2NNN 3XNN 4XNN 5XY0 9XY0 BNNN (41_control_flow.md). A meaning is the execute phase and
the PC update (40_cycle.md R62, R63); the timer tick is the step's. -/

namespace Sys2Proof.Machine

/-- 00EE (R69). -/
def exec00EE (s : State) : Result :=
  match s.pop with
  | none => raise .stackUnderflow
  | some (a, t) => .next (t.setPc a)

/-- 1NNN (R70). -/
def exec1NNN (nnn : Addr12) (s : State) : Result := .next (s.setPc (addrWord nnn))

/-- 2NNN: the value pushed is the address after the call, `PC + 2` (R71). -/
def exec2NNN (nnn : Addr12) (s : State) : Result :=
  match s.push (s.pc + 2) with
  | none => raise .stackOverflow
  | some t => .next (t.setPc (addrWord nnn))

/-- 3XNN (R72). -/
def exec3XNN (x : Reg) (nn : Byte) (s : State) : Result := .next (s.skipIf (s.readV x == nn))

/-- 4XNN (R73). -/
def exec4XNN (x : Reg) (nn : Byte) (s : State) : Result := .next (s.skipIf (s.readV x != nn))

/-- 5XY0 (R74). -/
def exec5XY0 (x y : Reg) (s : State) : Result := .next (s.skipIf (s.readV x == s.readV y))

/-- 9XY0 (R75). -/
def exec9XY0 (x y : Reg) (s : State) : Result := .next (s.skipIf (s.readV x != s.readV y))

/-- BNNN: `(NNN + V[0]) mod 65536` (R76). -/
def execBNNN (nnn : Addr12) (s : State) : Result :=
  .next (s.setPc (BitVec.ofNat 16 (nnn.toNat + (s.readV v0).toNat)))

end Sys2Proof.Machine
end

