-- ==== Sys2Proof/Machine/Display.lean ====
section
/-! DEFINITION. Framebuffer instructions: 00E0 DXYN (44_display.md). -/

namespace Sys2Proof.Machine

/-- 00E0 (R96). -/
def exec00E0 (s : State) : Result := .next (s.setFb Framebuffer.clear).markDirty.advance

/-- DXYN: the coordinates are read before VF is written, and all N rows are checked before anything is (R97). -/
def execDXYN (x y : Reg) (n : RowCount) (s : State) : Result :=
  let d := drawSprite s.fb (s.readV x).toNat (s.readV y).toNat (s.mem.readBlock s.base n.val)
  withRange s.base n.val (.next ((s.writeV vf (collisionFlag d.collision)).setFb d.fb).markDirty.advance)

end Sys2Proof.Machine
end

