-- ==== Sys2Proof/Machine/IndexMemory.lean ====
section
/-! DEFINITION. Index register and memory transfer: ANNN FX1E FX29 FX33 FX55 FX65 (43_index_memory.md). The range of a transfer is
checked whole before anything is written (20_memory.md R36), and I is not changed by a transfer (00_scope.md R9). -/

namespace Sys2Proof.Machine

/-- ANNN (R90). -/
def execANNN (nnn : Addr12) (s : State) : Result := .next (s.setI (addrWord nnn)).advance

/-- FX1E: `(I + Vx) mod 65536`, no flag (R91). -/
def execFX1E (x : Reg) (s : State) : Result :=
  .next (s.setI (BitVec.ofNat 16 (s.i.toNat + (s.readV x).toNat))).advance

/-- FX29 (R92). -/
def execFX29 (x : Reg) (s : State) : Result := .next (s.setI (glyphAddress (s.readV x))).advance

/-- FX33: hundreds, tens and ones at I, I+1 and I+2 (R93). -/
def execFX33 (x : Reg) (s : State) : Result :=
  withRange s.base 3 (.next (s.setMem (s.mem.writeBlock s.base (decimalDigits (s.readV x)))).advance)

/-- FX55: `MEM[I+k] <- V[k]` for k = 0 .. X (R94). -/
def execFX55 (x : Reg) (s : State) : Result :=
  withRange s.base (x.val + 1) (.next (s.setMem (s.mem.writeBlock s.base (s.regsUpTo x))).advance)

/-- FX65: `V[k] <- MEM[I+k]` for k = 0 .. X (R95). -/
def execFX65 (x : Reg) (s : State) : Result :=
  withRange s.base (x.val + 1) (.next (s.setRegs (s.loadRegs x s.base)).advance)

end Sys2Proof.Machine
end

