-- ==== Sys2Proof/Machine/KeypadTimers.lean ====
section
/-! DEFINITION. Keypad and timer instructions: EX9E EXA1 FX07 FX0A FX15 FX18 (45_keypad_timers.md). `s.keys` is the keypad snapshot
of the step. -/

namespace Sys2Proof.Machine

/-- EX9E (R99). -/
def execEX9E (x : Reg) (s : State) : Result :=
  match keyState s.keys (s.readV x) with
  | none => raise (.keyIndexFault (s.readV x))
  | some pressed => .next (s.skipIf pressed)

/-- EXA1 (R100). -/
def execEXA1 (x : Reg) (s : State) : Result :=
  match keyState s.keys (s.readV x) with
  | none => raise (.keyIndexFault (s.readV x))
  | some pressed => .next (s.skipIf (!pressed))

/-- FX07 (R101). -/
def execFX07 (x : Reg) (s : State) : Result := .next (s.writeV x s.dt).advance

/-- FX0A completing with key `k` (R102). -/
def recordKey (k : Fin 16) (x : Reg) (s : State) : State := ((s.writeV x (BitVec.ofNat 8 k.val)).setWait false).advance

/-- FX0A: with no key pressed WAIT is set and PC stays; otherwise some pressed key is recorded, the one the free value
`Config.keySelect` names (R102; notes/assumptions/3.md). -/
def execFX0A (x : Reg) (s : State) : Result :=
  match chooseKey (pressedKeys s.keys) (Config.keySelect s.keyDraws) with
  | none => .next (s.setWait true)
  | some k => .next (recordKey k x s.countKey)

/-- FX15 (R103). -/
def execFX15 (x : Reg) (s : State) : Result := .next (s.setDt (s.readV x)).advance

/-- FX18 (R104). -/
def execFX18 (x : Reg) (s : State) : Result := .next (s.setSt (s.readV x)).advance

end Sys2Proof.Machine
end

