-- ==== Sys2Proof/Machine/UnknownOpcode.lean ====
section
/-! DEFINITION. The unknown opcode, the row "other" (40_cycle.md R66, 60_exceptions.md R110). -/

namespace Sys2Proof.Machine

/-- UNKNOWN: reported, and nothing else but the PC update; not a fault (R66, R110). -/
def execUnknown (s : State) : Result := .next s.markUnknown.advance

end Sys2Proof.Machine
end

