-- ==== Sys2Proof/Machine/Step.lean ====
section
/-! DEFINITION. The instruction cycle `step()` (40_cycle.md R57 to R67). -/

namespace Sys2Proof.Machine

/-- One instruction cycle: refused before a successful load (R58); fetch, decode, execute and PC update, then the timer tick and
the outcome, in this order (R59). A fault is the whole result (R67). -/
def step (s : State) : Host.Outcome State Fault Refusal :=
  if s.loaded then
    match s.fetch with
    | .error a => raise (.addressFault a)
    | .ok w => finishStep (exec (decodeWord w) s.beginStep)
  else .refused .notLoaded

/-- The state with an instruction, numbered as spec/opcode_table.json numbers its bits, stored where `step` fetches next; it
stands for a program loaded from outside the machine. DESIGN CHOICE, notes/assumptions/7.md. -/
def State.withFetchWord (s : State) (nbits w : Nat) : State := s.placeWord (BitVec.ofNat 16 (w % 2 ^ nbits))

end Sys2Proof.Machine
end

