-- ==== Sys2Proof/Machine/Boundary.lean ====
section
/-! DEFINITION. The host's operations on the core between steps: `load` and `reset()` (70_reset_and_hazards.md R124 to R127), the
keypad write, and the framebuffer and timer reads (60_exceptions.md R118 to R120). Each is one atomic transaction (D23). -/

namespace Sys2Proof.Machine

/-- The failures of `load` and `reset()`; they are not faults of a step (60_exceptions.md R105). -/
inductive InterfaceError where
  /-- RomTooLargeError: the image is longer than 3584 bytes (R125). -/
  | romTooLarge
  /-- NotLoadedError: `reset()` before any successful load (R127). -/
  | notLoaded
  deriving DecidableEq, Repr

/-- The state an operation leaves, and why it failed if it did. -/
structure InterfaceResult where
  state : State
  error : Option InterfaceError
  deriving DecidableEq, Repr

/-- Memory after a load: zero, then FONT at 0, then the image at 0x200 (R124). The empty list stands for zeroed memory with the
default font, all of which the font write covers. -/
def loadedMemory (font : Vector Byte 80) (rom : List Byte) : Memory :=
  (Memory.writeBlock [] Config.fontBase font.toList).writeBlock Config.progBase rom

/-- The state of the core after `rom` was loaded (10_state.md R27). FONT is kept, being constant; the model's own fields keep the
host's coming keypad writes and the draw counts, so that no draw is made twice, and the outcome flags are cleared
(notes/assumptions/13.md). -/
def State.loadedWith (s : State) (rom : List Byte) : State where
  v := Vector.replicate 16 0
  i := 0
  pc := BitVec.ofNat 16 Config.progBase
  sp := 0
  stk := Vector.replicate 16 0
  dt := 0
  st := 0
  mem := loadedMemory s.font rom
  fb := Framebuffer.clear
  keys := Keypad.released
  wait := false
  romImg := rom
  loaded := true
  font := s.font
  out := ⟨false, false, false⟩
  keyWrites := s.keyWrites
  rndDraws := s.rndDraws
  keyDraws := s.keyDraws

/-- `load(rom_bytes)` (R124); a failed load changes nothing (R125). -/
def State.load (s : State) (rom : List Byte) : InterfaceResult :=
  if rom.length > Config.romMax then ⟨s, some .romTooLarge⟩ else ⟨s.loadedWith rom, none⟩

/-- `reset()`: the load of the retained image again (R126), an error that changes nothing before any load (R127). -/
def State.hostReset (s : State) : InterfaceResult :=
  if s.loaded then s.load s.romImg else ⟨s, some .notLoaded⟩

/-- The keypad write: all sixteen key states are replaced (R119); no defined result before the first load (R128). -/
def State.writeKeys (s : State) (keys : Keypad) : Option State := if s.loaded then some (s.setKeys keys) else none

/-- The framebuffer read: the whole grid, with no side effect (R118); no defined value before the first load (R128). -/
def State.readFramebuffer (s : State) : Option Framebuffer := if s.loaded then some s.fb else none

/-- The timer read: DT and ST (R120); no defined value before the first load (R128). -/
def State.readTimers (s : State) : Option (Byte × Byte) := if s.loaded then some (s.dt, s.st) else none

/-- The code the spec gives a fault, a convenience (60_exceptions.md R105, D20). -/
def Fault.code : Fault → Nat
  | .addressFault _ => 1
  | .stackOverflow => 2
  | .stackUnderflow => 3
  | .keyIndexFault _ => 4

end Sys2Proof.Machine
end

