-- ==== Sys2Proof/Safety.lean ====
section
/-! DEFINITION. The vocabulary of the whole-machine rules: the PC update (40_cycle.md R63), the checks (60_exceptions.md R112), the
access matrix (10_state.md R28), the pixels a sprite covers (44_display.md R97), and the invariant of a machine that runs. Each
table is written from its rule, not from the meanings. -/

namespace Sys2Proof.Machine

/-- A skip's `next_pc` (R63). -/
def skipPc (s : State) (condition : Prop) [Decidable condition] : Word := if condition then s.pc + 4 else s.pc + 2

/-- `next_pc` of an operation that executes without fault, the table of R63. -/
def nextPcOf (i : Instr) (s : State) : Word :=
  match i with
  | .op00EE => s.stk[s.sp.val - 1]
  | .op1NNN nnn => nnn.setWidth 16
  | .op2NNN nnn => nnn.setWidth 16
  | .opBNNN nnn => BitVec.ofNat 16 ((nnn.toNat + (s.readV 0).toNat) % 65536)
  | .op3XNN x nn => skipPc s (s.readV x = nn)
  | .op4XNN x nn => skipPc s (s.readV x ≠ nn)
  | .op5XY0 x y => skipPc s (s.readV x = s.readV y)
  | .op9XY0 x y => skipPc s (s.readV x ≠ s.readV y)
  | .opEX9E x => skipPc s (∃ k : Fin 16, k.val = (s.readV x).toNat ∧ s.keys[k] = true)
  | .opEXA1 x => skipPc s (∃ k : Fin 16, k.val = (s.readV x).toNat ∧ s.keys[k] = false)
  | .opFX0A _ => if ∀ k : Fin 16, s.keys[k] = false then s.pc else s.pc + 2
  | .op00E0 => s.pc + 2
  | .op6XNN _ _ => s.pc + 2
  | .op7XNN _ _ => s.pc + 2
  | .op8XY0 _ _ => s.pc + 2
  | .op8XY1 _ _ => s.pc + 2
  | .op8XY2 _ _ => s.pc + 2
  | .op8XY3 _ _ => s.pc + 2
  | .op8XY4 _ _ => s.pc + 2
  | .op8XY5 _ _ => s.pc + 2
  | .op8XY6 _ _ => s.pc + 2
  | .op8XY7 _ _ => s.pc + 2
  | .op8XYE _ _ => s.pc + 2
  | .opANNN _ => s.pc + 2
  | .opCXNN _ _ => s.pc + 2
  | .opDXYN _ _ _ => s.pc + 2
  | .opFX07 _ => s.pc + 2
  | .opFX15 _ => s.pc + 2
  | .opFX18 _ => s.pc + 2
  | .opFX1E _ => s.pc + 2
  | .opFX29 _ => s.pc + 2
  | .opFX33 _ => s.pc + 2
  | .opFX55 _ => s.pc + 2
  | .opFX65 _ => s.pc + 2
  | .unknown _ => s.pc + 2

/-- The data addresses an instruction touches, as first address and count (20_memory.md R36); none for the others. -/
def accessRange (i : Instr) (s : State) : Option (Nat × Nat) :=
  match i with
  | .opDXYN _ _ n => some (s.i.toNat, n.val)
  | .opFX33 _ => some (s.i.toNat, 3)
  | .opFX55 x => some (s.i.toNat, x.val + 1)
  | .opFX65 x => some (s.i.toNat, x.val + 1)
  | _ => none

/-- The one check of an instruction and the fault it raises (R112, R105 to R109). -/
def checkOf (i : Instr) (s : State) : Option Fault :=
  match i with
  | .op00EE => if s.sp.val = 0 then some .stackUnderflow else none
  | .op2NNN _ => if s.sp.val = 16 then some .stackOverflow else none
  | .opEX9E x => if (s.readV x).toNat > 15 then some (.keyIndexFault (s.readV x)) else none
  | .opEXA1 x => if (s.readV x).toNat > 15 then some (.keyIndexFault (s.readV x)) else none
  | j =>
    match accessRange j s with
    | some (base, n) => if n > 0 ∧ base + n - 1 > 4095 then some (.addressFault (max base 4096)) else none
    | none => none

/-- A piece of state an instruction may write besides PC, the timers' tick and the outcome flags (R28). The last two are the
model's counts of the draws R28 lists as read. -/
inductive Part where
  | v (r : Reg)
  | i
  | sp
  | stk
  | dt
  | st
  | mem
  | fb
  | wait
  | rndDraws
  | keyDraws
  deriving DecidableEq, Repr

/-- The column "writes" of the access matrix (R28). -/
def writesOf : Instr → List Part
  | .op00E0 => [.fb]
  | .op00EE => [.sp]
  | .op1NNN _ => []
  | .op2NNN _ => [.stk, .sp]
  | .op3XNN _ _ => []
  | .op4XNN _ _ => []
  | .op5XY0 _ _ => []
  | .op6XNN x _ => [.v x]
  | .op7XNN x _ => [.v x]
  | .op8XY0 x _ => [.v x]
  | .op8XY1 x _ => [.v x]
  | .op8XY2 x _ => [.v x]
  | .op8XY3 x _ => [.v x]
  | .op8XY4 x _ => [.v x, .v 15]
  | .op8XY5 x _ => [.v x, .v 15]
  | .op8XY6 x y => [.v 15, .v y, .v x]
  | .op8XY7 x _ => [.v x, .v 15]
  | .op8XYE x y => [.v 15, .v y, .v x]
  | .op9XY0 _ _ => []
  | .opANNN _ => [.i]
  | .opBNNN _ => []
  | .opCXNN x _ => [.v x, .rndDraws]
  | .opDXYN _ _ _ => [.v 15, .fb]
  | .opEX9E _ => []
  | .opEXA1 _ => []
  | .opFX07 x => [.v x]
  | .opFX0A x => [.v x, .wait, .keyDraws]
  | .opFX15 _ => [.dt]
  | .opFX18 _ => [.st]
  | .opFX1E _ => [.i]
  | .opFX29 _ => [.i]
  | .opFX33 _ => [.mem]
  | .opFX55 _ => [.mem]
  | .opFX65 x => ((List.finRange 16).filter (· ≤ x)).map .v
  | .unknown _ => []

/-- The instruction's operation draws: 00E0 and DXYN (40_cycle.md R65). -/
def draws : Instr → Bool
  | .op00E0 => true
  | .opDXYN _ _ _ => true
  | _ => false

/-- The instruction is the unknown opcode (40_cycle.md R65, R66). -/
def isUnknown : Instr → Bool
  | .unknown _ => true
  | _ => false

/-- The instruction reads the keypad: EX9E, EXA1 and FX0A (40_cycle.md R68). -/
def readsKeys : Instr → Bool
  | .opEX9E _ => true
  | .opEXA1 _ => true
  | .opFX0A _ => true
  | _ => false

/-- Some set bit of the sprite of `n` rows at `base` falls on pixel (x, y): bit 7 - c of row r, drawn at
`((x0+c) mod 64, (y0+r) mod 32)` (44_display.md R97). -/
def spriteCovers (mem : Memory) (base n x0 y0 : Nat) (x : Fin 64) (y : Fin 32) : Prop :=
  ∃ r < n, ∃ c < 8, (mem.read (base + r)).getLsbD (7 - c) = true ∧ x.val = (x0 + c) % 64 ∧ y.val = (y0 + r) % 32

/-- What holds of every machine that was loaded and stepped. -/
structure State.Inv (s : State) : Prop where
  /-- Memory is in its canonical form, with no cell outside 0 .. 4095 (10_state.md R20). -/
  memory : s.mem.wf
  /-- The retained image fits (R24). -/
  image : s.romImg.length ≤ 3584
  /-- PC is at most 4350, the largest value any rule can produce (R15). -/
  pc : s.pc.toNat ≤ 4350
  /-- Every live stack entry is at most 4096 (41_control_flow.md R69, R71). -/
  stack : ∀ j : Fin 16, j.val < s.sp.val → s.stk[j].toNat ≤ 4096
  /-- While WAIT is 1, PC addresses an FX0A (R23). -/
  waiting : s.wait = true → s.pc.toNat ≤ 4094 ∧
    ∃ x, decodeWord (wordOfBytes (s.mem.read s.pc.toNat) (s.mem.read (s.pc.toNat + 1))) = .opFX0A x
  /-- The last step reported `sound_on` exactly when ST is non-zero (40_cycle.md R65). -/
  sound : s.out.soundOn = decide (s.st.toNat > 0)

end Sys2Proof.Machine
end

