-- ==== Sys2Proof/Certificates/Slice0/Obligations.lean ====
section
/-! DEFINITION. The statements for the provers. Each docstring names the rule of spec/ a statement formalises; where a clause rests on
a decision of the spec (92_eei_decisions.md D<n>) or on a choice of the model (notes/assumptions/<n>.md), it says so. -/

open Sys2Proof Sys2Proof.Machine

/-! ### The cycle (40_cycle.md) -/

/-- A step of a loaded core whose PC is at most 4094 is the keypad write and fresh outcome flags, then the execute phase of the
instruction decoded from the two bytes at PC, then the tick of both timers and `sound_on` (40_cycle.md section 2). The keypad
write at the start of the step is the model's (log 4), the outcome flags are held in State (log 5), and the split of the step is
the model's (log 10). No instruction answers a refusal (`EachInstructionFaultsExactlyOnItsCheck`). -/
def Obligations.StepRunsDecodedInstruction : Prop :=
  ∀ (s : State) (i : Instr), s.loaded = true → s.pc.toNat ≤ 4094 →
    decodeWord (s.mem.read s.pc.toNat ++ s.mem.read (s.pc.toNat + 1)) = i →
    let s₀ : State := { s with
      keys := s.keyWrites.headD s.keys, keyWrites := s.keyWrites.tail, out := ⟨false, false, false⟩ }
    (∀ u, exec i s₀ = .next u → step s = .next { u with
      dt := BitVec.ofNat 8 (u.dt.toNat - 1), st := BitVec.ofNat 8 (u.st.toNat - 1),
      out := ⟨u.out.fbDirty, decide (u.st.toNat > 1), u.out.unknown⟩ }) ∧
    (∀ f, exec i s₀ = .fault f → step s = .fault f)

/-- The fetch succeeds exactly when PC ≤ 4094, with the big-endian word, and otherwise the step is an AddressFault (40_cycle.md
section 2, 20_memory.md sections 2 and 3). That the fault carries PC, or 4096 when PC = 4095, the lowest address out of range, is
decision D7 (log 9). -/
def Obligations.FetchReadsBigEndianOrFaults : Prop :=
  ∀ s : State,
    (s.pc.toNat ≤ 4094 → ∃ w : Word, s.fetch = .ok w ∧
      w.toNat = (s.mem.read s.pc.toNat).toNat * 256 + (s.mem.read (s.pc.toNat + 1)).toNat) ∧
    (s.pc.toNat > 4094 → s.fetch = .error (if s.pc.toNat ≥ 4096 then s.pc.toNat else 4096)) ∧
    (s.loaded = true → s.pc.toNat > 4094 →
      step s = .fault (.addressFault (if s.pc.toNat ≥ 4096 then s.pc.toNat else 4096)))

/-- Before the first successful load a step is refused, the read interfaces give nothing and the keypad write has no result
(70_reset_and_hazards.md section 1, decision D21; log 11). -/
def Obligations.UnloadedCoreIsRefused : Prop :=
  ∀ s : State, s.loaded = false →
    step s = .refused .notLoaded ∧ s.readFramebuffer = none ∧ s.readTimers = none ∧ ∀ keys, s.writeKeys keys = none

/-- R63: PC after an operation is the `next_pc` of the table, and as the fetch had PC ≤ 4094 the default and the skip do not
wrap. -/
def Obligations.PcUpdateFollowsTheTable : Prop :=
  ∀ (i : Instr) (s t : State), exec i s = .next t →
    t.pc = nextPcOf i s ∧
    (s.pc.toNat ≤ 4094 → (s.pc + 2).toNat = s.pc.toNat + 2 ∧ (s.pc + 4).toNat = s.pc.toNat + 4)

/-- Every step that answers a next state ticks both timers once, whatever it executed; FX15 and FX18 set their timer before the
tick (decision D10 for the tick of a waiting FX0A). -/
def Obligations.TimersTickInEveryStep : Prop :=
  ∀ (s t : State) (i : Instr), step s = .next t →
    decodeWord (s.mem.read s.pc.toNat ++ s.mem.read (s.pc.toNat + 1)) = i →
    (∀ x, i = .opFX15 x → t.dt.toNat = (s.readV x).toNat - 1) ∧
    ((∀ x, i ≠ .opFX15 x) → t.dt.toNat = s.dt.toNat - 1) ∧
    (∀ x, i = .opFX18 x → t.st.toNat = (s.readV x).toNat - 1) ∧
    ((∀ x, i ≠ .opFX18 x) → t.st.toNat = s.st.toNat - 1)

/-- The outcome of a step: `fb_dirty` exactly for 00E0 and DXYN, `unknown` exactly for an unknown word, `sound_on` exactly when ST
is non-zero after the tick (decision D19; that State holds the outcome is the model's, log 5). -/
def Obligations.OutcomeFlagsReportTheStep : Prop :=
  ∀ (s t : State) (i : Instr), step s = .next t →
    decodeWord (s.mem.read s.pc.toNat ++ s.mem.read (s.pc.toNat + 1)) = i →
    (t.out.fbDirty = true ↔ i = .op00E0 ∨ ∃ x y n, i = .opDXYN x y n) ∧
    (t.out.unknown = true ↔ ∃ w, i = .unknown w) ∧
    (t.out.soundOn = true ↔ t.st.toNat > 0)

/-- An unknown word executes with no change besides the tick, PC + 2 and the report; it is no fault (40_cycle.md section 3). The
keypad fields named in the frame hold the host's write of this step (log 4), and the report is held in State (log 5). -/
def Obligations.UnknownWordOnlyAdvancesAndTicks : Prop :=
  ∀ (s : State) (w : Word), isUnknownWord w = true →
    (∃ t, exec (.unknown w) s = .next t ∧
      t = { s with pc := s.pc + 2, out := ⟨s.out.fbDirty, s.out.soundOn, true⟩ }) ∧
    (s.loaded = true → s.pc.toNat ≤ 4094 → s.mem.read s.pc.toNat ++ s.mem.read (s.pc.toNat + 1) = w →
      ∃ t, step s = .next t ∧ t.out.unknown = true ∧ t.out.fbDirty = false ∧
        t.pc.toNat = s.pc.toNat + 2 ∧ t.dt.toNat = s.dt.toNat - 1 ∧ t.st.toNat = s.st.toNat - 1 ∧
        t = { s with
          pc := t.pc, dt := t.dt, st := t.st, out := t.out,
          keys := s.keyWrites.headD s.keys, keyWrites := s.keyWrites.tail })

/-! ### Whole-machine rules -/

/-- Every instruction has one check: it raises exactly the fault of that check, and completes exactly when the check passes. So no
arithmetic condition faults and nothing is refused (60_exceptions.md sections 1 and 2, 41_control_flow.md for SP = 0 and SP = 16).
The data range and key index checks are decisions D5 and D8; that the fault carries the lowest address out of range, `max(I, 4096)`,
or V[X], is decision D7 (log 9). -/
def Obligations.EachInstructionFaultsExactlyOnItsCheck : Prop :=
  ∀ (i : Instr) (s : State),
    (∀ f, exec i s = .fault f ↔ checkOf i s = some f) ∧
    ((∃ t, exec i s = .next t) ↔ checkOf i s = none)

/-- The frame of every instruction: what its row of the access matrix does not name as written keeps its value; a call writes one
stack entry, a store only the bytes of its range, and the keypad, the image, the font and the host's coming keypad writes are
never written (00_scope.md section 4, decision D2; 10_state.md section 11). The outcome flags change only for 00E0, DXYN and
unknown words (40_cycle.md section 2; `fb_dirty` for these two is decision D19, and that State holds the flags is the model's, log 5).
The coming keypad writes and the counts of the draws are the model's own fields (log 4, log 2, log 3). -/
def Obligations.EachInstructionKeepsWhatItDoesNotName : Prop :=
  ∀ (i : Instr) (s t : State), exec i s = .next t →
    (∀ r, Part.v r ∉ writesOf i → t.readV r = s.readV r) ∧
    (Part.i ∉ writesOf i → t.i = s.i) ∧
    (Part.sp ∉ writesOf i → t.sp = s.sp) ∧
    (∀ j : Fin 16, Part.stk ∉ writesOf i ∨ j.val ≠ s.sp.val → t.stk[j] = s.stk[j]) ∧
    (Part.dt ∉ writesOf i → t.dt = s.dt) ∧
    (Part.st ∉ writesOf i → t.st = s.st) ∧
    (Part.mem ∉ writesOf i → t.mem = s.mem) ∧
    (∀ base n, accessRange i s = some (base, n) → ∀ a, a < base ∨ base + n ≤ a → t.mem.read a = s.mem.read a) ∧
    (Part.fb ∉ writesOf i → t.fb = s.fb) ∧
    (Part.wait ∉ writesOf i → t.wait = s.wait) ∧
    (Part.rndDraws ∉ writesOf i → t.rndDraws = s.rndDraws) ∧
    (Part.keyDraws ∉ writesOf i → t.keyDraws = s.keyDraws) ∧
    t.keys = s.keys ∧ t.romImg = s.romImg ∧ t.loaded = s.loaded ∧ t.font = s.font ∧ t.keyWrites = s.keyWrites ∧
    t.out = ⟨s.out.fbDirty || draws i, s.out.soundOn, s.out.unknown || isUnknown i⟩

/-- Determinism of the inputs: the keypad matters only to EX9E, EXA1 and FX0A, the draw `rnd` only to CXNN and the draw
KEY_SELECT only to FX0A (40_cycle.md section 4). The draw counts are the model's (log 2, log 3). -/
def Obligations.InputsReachOnlyTheirInstructions : Prop :=
  ∀ (i : Instr) (s t : State), exec i s = .next t →
    (readsKeys i = false → ∀ k, exec i { s with keys := k } = .next { t with keys := k }) ∧
    ((∀ x nn, i ≠ .opCXNN x nn) → ∀ n, exec i { s with rndDraws := n } = .next { t with rndDraws := n }) ∧
    ((∀ x, i ≠ .opFX0A x) → ∀ n, exec i { s with keyDraws := n } = .next { t with keyDraws := n })

/-- The invariant holds of the machine after reset. What ROM it holds is the model's choice (log 6), and so is that its outcome flags
are false, on which the clause on `sound_on` rests (log 5). -/
def Obligations.ResetMeetsTheInvariant : Prop := State.reset.Inv

/-- Every step keeps the invariant: canonical memory, PC at most 4350 and live stack entries at most 4096, WAIT only on an FX0A,
`sound_on` as ST says. The canonical form is the model's (log 8), the bound on the stack entries rests on decision D14 and WAIT on
D11 (log 9), and `sound_on` is decision D19 on a field of the model's (log 5). -/
def Obligations.EveryStepKeepsTheInvariant : Prop :=
  ∀ s t : State, s.Inv → step s = .next t → t.Inv

/-- The host's operations keep the invariant, and a successful load establishes it from any state, an unloaded core's
unspecified one included. That a load clears the outcome flags, on which the clause on `sound_on` rests, is the model's (log 13,
log 5). -/
def Obligations.HostOperationsKeepTheInvariant : Prop :=
  ∀ s : State,
    (∀ rom, (s.load rom).error = none → (s.load rom).state.Inv) ∧
    (s.Inv → ∀ rom, (s.load rom).state.Inv) ∧
    (s.Inv → s.hostReset.state.Inv) ∧
    (s.Inv → ∀ k t, s.writeKeys k = some t → t.Inv)

/-- WAIT after a step is 1 exactly when the step was an FX0A that found no key pressed (10_state.md section 9, decision D11). The
step's snapshot is the model's first pending keypad write (log 4), or, with none pending, the vector written last (decision D22). -/
def Obligations.WaitMarksANonCompletingKeyWait : Prop :=
  ∀ (s t : State) (i : Instr), s.Inv → step s = .next t →
    decodeWord (s.mem.read s.pc.toNat ++ s.mem.read (s.pc.toNat + 1)) = i →
    (t.wait = true ↔ (∃ x, i = .opFX0A x) ∧ ∀ k : Fin 16, (s.keyWrites.headD s.keys)[k] = false)

/-! ### Control transfer (41_control_flow.md) -/

/-- 00EE pops the return address into PC with no addition, or is StackUnderflow when SP = 0; the popped entry keeps its bits
(decision D15, unobservable). -/
def Obligations.ReturnPopsIntoPc : Prop :=
  ∀ s : State, decodeWord 0x00EE = .op00EE ∧
    (s.sp.val = 0 → exec .op00EE s = .fault .stackUnderflow) ∧
    (∀ j : Fin 16, s.sp.val = j.val + 1 → ∃ t, exec .op00EE s = .next t ∧
      t.pc = s.stk[j] ∧ t.sp.val = j.val ∧ t = { s with pc := t.pc, sp := t.sp })

/-- R70: 1NNN leaves PC = NNN and changes nothing else. -/
def Obligations.JumpSetsPc : Prop :=
  ∀ (nnn : Addr12) (s : State), decodeWord (0x1#4 ++ nnn) = .op1NNN nnn ∧
    ∃ t, exec (.op1NNN nnn) s = .next t ∧ t.pc.toNat = nnn.toNat ∧ t = { s with pc := t.pc }

/-- 2NNN pushes PC + 2 and jumps, or is StackOverflow when SP = 16 (decision D14 for the value pushed). -/
def Obligations.CallPushesAddressAfterIt : Prop :=
  ∀ (nnn : Addr12) (s : State), decodeWord (0x2#4 ++ nnn) = .op2NNN nnn ∧
    (s.sp.val = 16 → exec (.op2NNN nnn) s = .fault .stackOverflow) ∧
    (∀ j : Fin 16, s.sp.val = j.val → ∃ t, exec (.op2NNN nnn) s = .next t ∧
      t.pc.toNat = nnn.toNat ∧ t.sp.val = j.val + 1 ∧ t.stk[j].toNat = (s.pc.toNat + 2) % 65536 ∧
      (∀ k : Fin 16, k ≠ j → t.stk[k] = s.stk[k]) ∧ t = { s with pc := t.pc, sp := t.sp, stk := t.stk })

/-- R72 to R75: the four register skips: PC + 4 when the condition holds, else PC + 2, and nothing else changes. -/
def Obligations.SkipsCompareRegisters : Prop :=
  ∀ (x y : Reg) (nn : Byte) (s : State),
    decodeWord (0x3#4 ++ nibble x ++ nn) = .op3XNN x nn ∧
    decodeWord (0x4#4 ++ nibble x ++ nn) = .op4XNN x nn ∧
    decodeWord (0x5#4 ++ nibble x ++ nibble y ++ 0x0#4) = .op5XY0 x y ∧
    decodeWord (0x9#4 ++ nibble x ++ nibble y ++ 0x0#4) = .op9XY0 x y ∧
    (∃ t, exec (.op3XNN x nn) s = .next t ∧ t = { s with pc := t.pc } ∧
      t.pc.toNat = (s.pc.toNat + if (s.readV x).toNat = nn.toNat then 4 else 2) % 65536) ∧
    (∃ t, exec (.op4XNN x nn) s = .next t ∧ t = { s with pc := t.pc } ∧
      t.pc.toNat = (s.pc.toNat + if (s.readV x).toNat ≠ nn.toNat then 4 else 2) % 65536) ∧
    (∃ t, exec (.op5XY0 x y) s = .next t ∧ t = { s with pc := t.pc } ∧
      t.pc.toNat = (s.pc.toNat + if (s.readV x).toNat = (s.readV y).toNat then 4 else 2) % 65536) ∧
    (∃ t, exec (.op9XY0 x y) s = .next t ∧ t = { s with pc := t.pc } ∧
      t.pc.toNat = (s.pc.toNat + if (s.readV x).toNat ≠ (s.readV y).toNat then 4 else 2) % 65536)

/-- R76: BNNN leaves PC = NNN + V0, which never wraps and is not reduced modulo 4096. -/
def Obligations.OffsetJumpAddsV0 : Prop :=
  ∀ (nnn : Addr12) (s : State), decodeWord (0xB#4 ++ nnn) = .opBNNN nnn ∧
    ∃ t, exec (.opBNNN nnn) s = .next t ∧ t.pc.toNat = nnn.toNat + (s.readV 0).toNat ∧ t = { s with pc := t.pc }

/-- A call followed by a return resumes at the address after the call with the stack pointer restored; only the stack entry used
differs (41_control_flow.md, decisions D14 and D15; the source's round trip property). -/
def Obligations.CallThenReturnResumesAfterTheCall : Prop :=
  ∀ (nnn : Addr12) (s : State), s.sp.val < 16 →
    ∃ t u, exec (.op2NNN nnn) s = .next t ∧ exec .op00EE t = .next u ∧
      u = { s with pc := s.pc + 2, stk := u.stk } ∧
      ∀ k : Fin 16, k.val ≠ s.sp.val → u.stk[k] = s.stk[k]

/-- A jump to itself: after any number of steps PC is where it was and each timer has gone down by one a step, stopping at 0;
registers, I, stack, memory and framebuffer are unchanged (the source's scenario; 41_control_flow.md and 40_cycle.md). -/
def Obligations.JumpToSelfLoopsWhileTimersRunDown : Prop :=
  ∀ (s : State) (nnn : Addr12), s.loaded = true → s.pc.toNat = nnn.toNat → s.pc.toNat ≤ 4094 →
    s.mem.read s.pc.toNat ++ s.mem.read (s.pc.toNat + 1) = 0x1#4 ++ nnn →
    ∀ n, ∃ t, Host.Core.run Sys2Proof.core n s = .next t ∧
      t.pc = s.pc ∧ t.dt.toNat = s.dt.toNat - n ∧ t.st.toNat = s.st.toNat - n ∧
      t.v = s.v ∧ t.i = s.i ∧ t.sp = s.sp ∧ t.stk = s.stk ∧ t.mem = s.mem ∧ t.fb = s.fb ∧ t.wait = s.wait

/-- A call of its own address recurses until the stack is full, one entry a step, and the next step is StackOverflow
(41_control_flow.md; decision D14 for the value in the entries). -/
def Obligations.CallToSelfFillsTheStackThenOverflows : Prop :=
  ∀ (s : State) (nnn : Addr12), s.loaded = true → s.pc.toNat = nnn.toNat → s.pc.toNat ≤ 4094 →
    s.mem.read s.pc.toNat ++ s.mem.read (s.pc.toNat + 1) = 0x2#4 ++ nnn →
    (∀ n, s.sp.val + n ≤ 16 → ∃ t, Host.Core.run Sys2Proof.core n s = .next t ∧
      t.pc = s.pc ∧ t.sp.val = s.sp.val + n ∧
      ∀ j : Fin 16, s.sp.val ≤ j.val → j.val < s.sp.val + n → t.stk[j].toNat = s.pc.toNat + 2) ∧
    Host.Core.run Sys2Proof.core (17 - s.sp.val) s = .fault .stackOverflow

/-- Running off the end: over zeroed memory each step reports an unknown word and goes two bytes on, until PC is 4096 and the step
faults with that address (40_cycle.md section 3; the report is held in State, log 5). -/
def Obligations.ZeroedMemoryRunsOffTheEnd : Prop :=
  ∀ s : State, s.loaded = true → s.pc.toNat ≤ 4096 → s.pc.toNat % 2 = 0 →
    (∀ a, s.pc.toNat ≤ a → a < 4096 → s.mem.read a = 0) →
    (∀ n, s.pc.toNat + 2 * n ≤ 4096 → ∃ t, Host.Core.run Sys2Proof.core n s = .next t ∧
      t.pc.toNat = s.pc.toNat + 2 * n ∧ (n > 0 → t.out.unknown = true) ∧
      t.v = s.v ∧ t.i = s.i ∧ t.sp = s.sp ∧ t.stk = s.stk ∧ t.mem = s.mem ∧ t.fb = s.fb) ∧
    Host.Core.run Sys2Proof.core ((4096 - s.pc.toNat) / 2 + 1) s = .fault (.addressFault 4096)

/-! ### Register load, arithmetic, logic, shift, random (42_alu.md) -/

/-- R77, R78: 6XNN loads NN and 7XNN adds it modulo 256; no other register changes, VF included unless it is V[X]. -/
def Obligations.LoadAndAddImmediate : Prop :=
  ∀ (x : Reg) (nn : Byte) (s : State),
    decodeWord (0x6#4 ++ nibble x ++ nn) = .op6XNN x nn ∧ decodeWord (0x7#4 ++ nibble x ++ nn) = .op7XNN x nn ∧
    (∃ t, exec (.op6XNN x nn) s = .next t ∧ t = { s with v := t.v, pc := s.pc + 2 } ∧
      ∀ r, t.readV r = if r = x then nn else s.readV r) ∧
    (∃ t, exec (.op7XNN x nn) s = .next t ∧ t = { s with v := t.v, pc := s.pc + 2 } ∧
      (t.readV x).toNat = ((s.readV x).toNat + nn.toNat) % 256 ∧ ∀ r, r ≠ x → t.readV r = s.readV r)

/-- R79 to R82: copy, or, and, exclusive or; VF is unchanged unless it is V[X]. -/
def Obligations.CopyAndBitwise : Prop :=
  ∀ (x y : Reg) (s : State),
    decodeWord (0x8#4 ++ nibble x ++ nibble y ++ 0x0#4) = .op8XY0 x y ∧
    decodeWord (0x8#4 ++ nibble x ++ nibble y ++ 0x1#4) = .op8XY1 x y ∧
    decodeWord (0x8#4 ++ nibble x ++ nibble y ++ 0x2#4) = .op8XY2 x y ∧
    decodeWord (0x8#4 ++ nibble x ++ nibble y ++ 0x3#4) = .op8XY3 x y ∧
    (∃ t, exec (.op8XY0 x y) s = .next t ∧ t = { s with v := t.v, pc := s.pc + 2 } ∧
      ∀ r, t.readV r = if r = x then s.readV y else s.readV r) ∧
    (∃ t, exec (.op8XY1 x y) s = .next t ∧ t = { s with v := t.v, pc := s.pc + 2 } ∧
      ∀ r, t.readV r = if r = x then s.readV x ||| s.readV y else s.readV r) ∧
    (∃ t, exec (.op8XY2 x y) s = .next t ∧ t = { s with v := t.v, pc := s.pc + 2 } ∧
      ∀ r, t.readV r = if r = x then s.readV x &&& s.readV y else s.readV r) ∧
    (∃ t, exec (.op8XY3 x y) s = .next t ∧ t = { s with v := t.v, pc := s.pc + 2 } ∧
      ∀ r, t.readV r = if r = x then s.readV x ^^^ s.readV y else s.readV r)

/-- R83: 8XY4 adds modulo 256 and then sets VF to the carry, so with X = F the sum is lost and VF is the carry. -/
def Obligations.AddRegistersSetsCarry : Prop :=
  ∀ (x y : Reg) (s : State), decodeWord (0x8#4 ++ nibble x ++ nibble y ++ 0x4#4) = .op8XY4 x y ∧
    ∃ t, exec (.op8XY4 x y) s = .next t ∧ t = { s with v := t.v, pc := s.pc + 2 } ∧
      (t.readV 15).toNat = (if (s.readV x).toNat + (s.readV y).toNat > 255 then 1 else 0) ∧
      (x ≠ 15 → (t.readV x).toNat = ((s.readV x).toNat + (s.readV y).toNat) % 256) ∧
      ∀ r, r ≠ x → r ≠ 15 → t.readV r = s.readV r

/-- R84: 8XY5 subtracts V[Y] from V[X] modulo 256 and then sets VF to 1 when there is no borrow. -/
def Obligations.SubtractSetsNoBorrow : Prop :=
  ∀ (x y : Reg) (s : State), decodeWord (0x8#4 ++ nibble x ++ nibble y ++ 0x5#4) = .op8XY5 x y ∧
    ∃ t, exec (.op8XY5 x y) s = .next t ∧ t = { s with v := t.v, pc := s.pc + 2 } ∧
      (t.readV 15).toNat = (if (s.readV x).toNat ≥ (s.readV y).toNat then 1 else 0) ∧
      (x ≠ 15 → ((t.readV x).toNat : Int) = (((s.readV x).toNat : Int) - ((s.readV y).toNat : Int)) % 256) ∧
      ∀ r, r ≠ x → r ≠ 15 → t.readV r = s.readV r

/-- 8XY7 subtracts V[X] from V[Y] modulo 256 into V[X] and then sets VF to 1 when there is no borrow; V[Y] is not written (42_alu.md,
the flag derived there from the source's row). -/
def Obligations.ReverseSubtractSetsNoBorrow : Prop :=
  ∀ (x y : Reg) (s : State), decodeWord (0x8#4 ++ nibble x ++ nibble y ++ 0x7#4) = .op8XY7 x y ∧
    ∃ t, exec (.op8XY7 x y) s = .next t ∧ t = { s with v := t.v, pc := s.pc + 2 } ∧
      (t.readV 15).toNat = (if (s.readV y).toNat ≥ (s.readV x).toNat then 1 else 0) ∧
      (x ≠ 15 → ((t.readV x).toNat : Int) = (((s.readV y).toNat : Int) - ((s.readV x).toNat : Int)) % 256) ∧
      ∀ r, r ≠ x → r ≠ 15 → t.readV r = s.readV r

/-- 8XY6 and 8XYE shift V[Y] by one into V[Y] and V[X]; VF is the bit shifted out unless X or Y is F, when VF is the shifted value
(decision D3 for Y = F). The old V[X] is not read. -/
def Obligations.ShiftsMoveVyIntoBothRegisters : Prop :=
  ∀ (x y : Reg) (s : State),
    decodeWord (0x8#4 ++ nibble x ++ nibble y ++ 0x6#4) = .op8XY6 x y ∧
    decodeWord (0x8#4 ++ nibble x ++ nibble y ++ 0xE#4) = .op8XYE x y ∧
    (∃ t, exec (.op8XY6 x y) s = .next t ∧ t = { s with v := t.v, pc := s.pc + 2 } ∧
      (t.readV x).toNat = (s.readV y).toNat / 2 ∧ (t.readV y).toNat = (s.readV y).toNat / 2 ∧
      (x ≠ 15 → y ≠ 15 → (t.readV 15).toNat = (s.readV y).toNat % 2) ∧
      ∀ r, r ≠ x → r ≠ y → r ≠ 15 → t.readV r = s.readV r) ∧
    (∃ t, exec (.op8XYE x y) s = .next t ∧ t = { s with v := t.v, pc := s.pc + 2 } ∧
      (t.readV x).toNat = (s.readV y).toNat * 2 % 256 ∧ (t.readV y).toNat = (s.readV y).toNat * 2 % 256 ∧
      (x ≠ 15 → y ≠ 15 → (t.readV 15).toNat = (s.readV y).toNat / 128) ∧
      ∀ r, r ≠ x → r ≠ y → r ≠ 15 → t.readV r = s.readV r)

/-- CXNN writes the draw under the mask, whatever the draw is: bits where NN has a 0 are 0 and the value is at most NN (decision D12).
That the draw is `Config.rnd` of a count the step advances is the model's (log 2). -/
def Obligations.RandomByteIsDrawnUnderMask : Prop :=
  ∀ (x : Reg) (nn : Byte) (s : State), decodeWord (0xC#4 ++ nibble x ++ nn) = .opCXNN x nn ∧
    ∃ t, exec (.opCXNN x nn) s = .next t ∧
      t = { s with v := t.v, pc := s.pc + 2, rndDraws := s.rndDraws + 1 } ∧
      t.readV x = Config.rnd s.rndDraws &&& nn ∧ (t.readV x).toNat ≤ nn.toNat ∧
      (∀ k, nn.getLsbD k = false → (t.readV x).getLsbD k = false) ∧
      ∀ r, r ≠ x → t.readV r = s.readV r

/-! ### Index register and memory transfer (43_index_memory.md) -/

/-- R90, R91, R92: ANNN loads I, FX1E adds V[X] to I modulo 65536 with no flag, FX29 sets I to 5 · V[X] with the whole byte. -/
def Obligations.IndexLoadAddAndGlyph : Prop :=
  ∀ (x : Reg) (nnn : Addr12) (s : State),
    decodeWord (0xA#4 ++ nnn) = .opANNN nnn ∧
    decodeWord (0xF#4 ++ nibble x ++ 0x1E#8) = .opFX1E x ∧ decodeWord (0xF#4 ++ nibble x ++ 0x29#8) = .opFX29 x ∧
    (∃ t, exec (.opANNN nnn) s = .next t ∧ t = { s with i := t.i, pc := s.pc + 2 } ∧ t.i.toNat = nnn.toNat) ∧
    (∃ t, exec (.opFX1E x) s = .next t ∧ t = { s with i := t.i, pc := s.pc + 2 } ∧
      t.i.toNat = (s.i.toNat + (s.readV x).toNat) % 65536) ∧
    (∃ t, exec (.opFX29 x) s = .next t ∧ t = { s with i := t.i, pc := s.pc + 2 } ∧
      t.i.toNat = (s.readV x).toNat * 5)

/-- FX33 stores hundreds, tens and ones of V[X] at I, I+1 and I+2 and no other byte, or is an AddressFault when I > 4093 (decisions
D5, D6, D7 for the fault). -/
def Obligations.StoreDecimalDigits : Prop :=
  ∀ (x : Reg) (s : State), decodeWord (0xF#4 ++ nibble x ++ 0x33#8) = .opFX33 x ∧
    (s.i.toNat > 4093 → exec (.opFX33 x) s = .fault (.addressFault (max s.i.toNat 4096))) ∧
    (s.i.toNat ≤ 4093 → ∃ t, exec (.opFX33 x) s = .next t ∧ t = { s with mem := t.mem, pc := s.pc + 2 } ∧
      (t.mem.read s.i.toNat).toNat = (s.readV x).toNat / 100 ∧
      (t.mem.read (s.i.toNat + 1)).toNat = (s.readV x).toNat / 10 % 10 ∧
      (t.mem.read (s.i.toNat + 2)).toNat = (s.readV x).toNat % 10 ∧
      ∀ a, a < s.i.toNat ∨ s.i.toNat + 2 < a → t.mem.read a = s.mem.read a)

/-- FX55 stores V0 .. VX at I .. I+X and no other byte, I unchanged, or is an AddressFault when I + X > 4095 (decisions D5, D6, D7
for the fault, D2 for I). -/
def Obligations.StoreRegisterRange : Prop :=
  ∀ (x : Reg) (s : State), decodeWord (0xF#4 ++ nibble x ++ 0x55#8) = .opFX55 x ∧
    (s.i.toNat + x.val > 4095 → exec (.opFX55 x) s = .fault (.addressFault (max s.i.toNat 4096))) ∧
    (s.i.toNat + x.val ≤ 4095 → ∃ t, exec (.opFX55 x) s = .next t ∧ t = { s with mem := t.mem, pc := s.pc + 2 } ∧
      (∀ r : Reg, r ≤ x → t.mem.read (s.i.toNat + r.val) = s.readV r) ∧
      ∀ a, a < s.i.toNat ∨ s.i.toNat + x.val < a → t.mem.read a = s.mem.read a)

/-- FX65 loads V0 .. VX from I .. I+X and no other register, I unchanged, or is an AddressFault when I + X > 4095 (decisions D5, D6,
D7 for the fault, D2 for I). -/
def Obligations.LoadRegisterRange : Prop :=
  ∀ (x : Reg) (s : State), decodeWord (0xF#4 ++ nibble x ++ 0x65#8) = .opFX65 x ∧
    (s.i.toNat + x.val > 4095 → exec (.opFX65 x) s = .fault (.addressFault (max s.i.toNat 4096))) ∧
    (s.i.toNat + x.val ≤ 4095 → ∃ t, exec (.opFX65 x) s = .next t ∧ t = { s with v := t.v, pc := s.pc + 2 } ∧
      ∀ r : Reg, t.readV r = if r ≤ x then s.mem.read (s.i.toNat + r.val) else s.readV r)

/-- Storing V0 .. VX and loading them back later, I being the same and the bytes not overwritten, restores V0 .. VX whatever happened
to them between (20_memory.md section 4, 43_index_memory.md). -/
def Obligations.StoredRegistersLoadBack : Prop :=
  ∀ (x : Reg) (s t s' : State), exec (.opFX55 x) s = .next t →
    s'.i = s.i → (∀ r : Reg, r ≤ x → s'.mem.read (s.i.toNat + r.val) = t.mem.read (s.i.toNat + r.val)) →
    ∃ u, exec (.opFX65 x) s' = .next u ∧ ∀ r : Reg, u.readV r = if r ≤ x then s.readV r else s'.readV r

/-- A store is seen by the next fetch: a step that executes FX55 with X ≥ 1 and I = PC + 2, so over the two bytes after it, makes the
next step execute the word V0 V1 that it stored (20_memory.md section 4). -/
def Obligations.StoreIsSeenByTheNextFetch : Prop :=
  ∀ (s t : State) (x : Reg), step s = .next t → x.val ≥ 1 →
    decodeWord (s.mem.read s.pc.toNat ++ s.mem.read (s.pc.toNat + 1)) = .opFX55 x →
    s.i.toNat = s.pc.toNat + 2 →
    t.fetch = .ok (s.readV 0 ++ s.readV 1) ∧
    step t = finishStep (exec (decodeWord (s.readV 0 ++ s.readV 1)) t.beginStep)

/-! ### Framebuffer (44_display.md) -/

/-- 00E0 turns all pixels off; VF is not written (44_display.md). It reports that it drew (decision D19; the report is held in State,
log 5). -/
def Obligations.ClearTurnsAllPixelsOff : Prop :=
  ∀ s : State, decodeWord 0x00E0 = .op00E0 ∧
    ∃ t, exec .op00E0 s = .next t ∧ (∀ x y, t.fb.pixel x y = false) ∧
      t = { s with fb := t.fb, pc := s.pc + 2, out := ⟨true, s.out.soundOn, s.out.unknown⟩ }

/-- DXYN inverts exactly the pixels its sprite covers, wrapping in both axes, and sets VF to 1 exactly when a covered pixel was on;
coordinates are the values V[X] and V[Y] had before, X = F and Y = F included (decision D3); N = 0 changes no pixel (D28); it is
an AddressFault before any change when a row lies outside memory (D5, D7); it always reports that it drew (D19; the
report is held in State, log 5). -/
def Obligations.DrawInvertsCoveredPixels : Prop :=
  ∀ (x y : Reg) (n : RowCount) (s : State),
    decodeWord (0xD#4 ++ nibble x ++ nibble y ++ nibble n) = .opDXYN x y n ∧
    (n.val > 0 → s.i.toNat + n.val - 1 > 4095 →
      exec (.opDXYN x y n) s = .fault (.addressFault (max s.i.toNat 4096))) ∧
    (n.val = 0 ∨ s.i.toNat + n.val - 1 ≤ 4095 → ∃ t, exec (.opDXYN x y n) s = .next t ∧
      (∀ px py, t.fb.pixel px py = true ↔ (s.fb.pixel px py = true ↔
        ¬spriteCovers s.mem s.i.toNat n.val (s.readV x).toNat (s.readV y).toNat px py)) ∧
      ((∃ px py, s.fb.pixel px py = true ∧
        spriteCovers s.mem s.i.toNat n.val (s.readV x).toNat (s.readV y).toNat px py) → t.readV 15 = 1) ∧
      ((¬∃ px py, s.fb.pixel px py = true ∧
        spriteCovers s.mem s.i.toNat n.val (s.readV x).toNat (s.readV y).toNat px py) → t.readV 15 = 0) ∧
      (∀ r, r ≠ 15 → t.readV r = s.readV r) ∧
      t = { s with v := t.v, fb := t.fb, pc := s.pc + 2, out := ⟨true, s.out.soundOn, s.out.unknown⟩ })

/-- The double-draw law: drawing again with the same coordinates, rows, I and sprite bytes on the framebuffer the first draw left
restores the framebuffer of before it, and VF is then 1 exactly when the first draw turned some pixel on; with X ≠ F and Y ≠ F the
state the first draw leaves is such a state, and the second draw completes (44_display.md, the law derived there). -/
def Obligations.DrawingTwiceRestoresTheFramebuffer : Prop :=
  ∀ (x y : Reg) (n : RowCount) (s t : State), exec (.opDXYN x y n) s = .next t →
    (∀ s' u : State, s'.fb = t.fb → s'.i = s.i → s'.readV x = s.readV x → s'.readV y = s.readV y →
      (∀ r < n.val, s'.mem.read (s.i.toNat + r) = s.mem.read (s.i.toNat + r)) →
      exec (.opDXYN x y n) s' = .next u →
      u.fb = s.fb ∧
      (u.readV 15 = 1 ↔ ∃ px py, s.fb.pixel px py = false ∧ t.fb.pixel px py = true) ∧
      (u.readV 15 = 0 ∨ u.readV 15 = 1)) ∧
    (x ≠ 15 → y ≠ 15 → ∃ u, exec (.opDXYN x y n) t = .next u ∧ u.fb = s.fb)

/-! ### Keypad and timers (45_keypad_timers.md) -/

/-- EX9E and EXA1 test the key V[X] of the snapshot and are a KeyIndexFault with V[X] when it is above 15 (decision D8). -/
def Obligations.KeySkipsTestTheSnapshot : Prop :=
  ∀ (x : Reg) (s : State),
    decodeWord (0xE#4 ++ nibble x ++ 0x9E#8) = .opEX9E x ∧ decodeWord (0xE#4 ++ nibble x ++ 0xA1#8) = .opEXA1 x ∧
    ((s.readV x).toNat > 15 → exec (.opEX9E x) s = .fault (.keyIndexFault (s.readV x)) ∧
      exec (.opEXA1 x) s = .fault (.keyIndexFault (s.readV x))) ∧
    (∀ k : Fin 16, (s.readV x).toNat = k.val →
      (∃ t, exec (.opEX9E x) s = .next t ∧ t = { s with pc := t.pc } ∧
        t.pc = if s.keys[k] = true then s.pc + 4 else s.pc + 2) ∧
      (∃ t, exec (.opEXA1 x) s = .next t ∧ t = { s with pc := t.pc } ∧
        t.pc = if s.keys[k] = true then s.pc + 2 else s.pc + 4))

/-- FX07 reads DT, FX15 sets DT and FX18 sets ST in the execute phase, each changing nothing else (45_keypad_timers.md). -/
def Obligations.TimerInstructionsMoveTheirTimer : Prop :=
  ∀ (x : Reg) (s : State),
    decodeWord (0xF#4 ++ nibble x ++ 0x07#8) = .opFX07 x ∧ decodeWord (0xF#4 ++ nibble x ++ 0x15#8) = .opFX15 x ∧
    decodeWord (0xF#4 ++ nibble x ++ 0x18#8) = .opFX18 x ∧
    (∃ t, exec (.opFX07 x) s = .next t ∧ t = { s with v := t.v, pc := s.pc + 2 } ∧
      ∀ r, t.readV r = if r = x then s.dt else s.readV r) ∧
    (∃ t, exec (.opFX15 x) s = .next t ∧ t = { s with dt := s.readV x, pc := s.pc + 2 }) ∧
    (∃ t, exec (.opFX18 x) s = .next t ∧ t = { s with st := s.readV x, pc := s.pc + 2 })

/-- A step of FX07 leaves in V[X] the value DT had before the step's tick (45_keypad_timers.md, derived there from the order of a
step). -/
def Obligations.ReadTimerStepGivesValueBeforeTheTick : Prop :=
  ∀ (s : State) (x : Reg), s.loaded = true → s.pc.toNat ≤ 4094 →
    decodeWord (s.mem.read s.pc.toNat ++ s.mem.read (s.pc.toNat + 1)) = .opFX07 x →
    ∃ t, step s = .next t ∧ t.readV x = s.dt ∧ t.dt.toNat = (t.readV x).toNat - 1 ∧ t.pc.toNat = s.pc.toNat + 2 ∧
      ∀ r, r ≠ x → t.readV r = s.readV r

/-- FX0A: with no key pressed only WAIT changes and PC stays; with a key pressed V[X] becomes the index of some pressed key, WAIT is
0 and PC goes on (decisions D9, D10, D11). Which pressed key it is is not stated. The draw count is the model's (log 3). -/
def Obligations.KeyWaitHoldsOrRecordsAPressedKey : Prop :=
  ∀ (x : Reg) (s : State), decodeWord (0xF#4 ++ nibble x ++ 0x0A#8) = .opFX0A x ∧
    ((∀ k : Fin 16, s.keys[k] = false) → ∃ t, exec (.opFX0A x) s = .next t ∧ t = { s with wait := true }) ∧
    (∀ p : Fin 16, s.keys[p] = true → ∃ (t : State) (k : Fin 16), exec (.opFX0A x) s = .next t ∧
      s.keys[k] = true ∧ (t.readV x).toNat = k.val ∧ (∀ r, r ≠ x → t.readV r = s.readV r) ∧
      t = { s with v := t.v, wait := false, pc := s.pc + 2, keyDraws := s.keyDraws + 1 })

/-- While no key is pressed in any of the coming snapshots, a core at an FX0A stays there step after step: WAIT is 1 and nothing but
the timers, which run down, the keypad input and the outcome flags changes (45_keypad_timers.md, decisions D10 and D11). The coming
snapshots are the model's pending keypad writes (log 4) and after them the vector written last (decision D22), so KEYS itself is
asked to hold no pressed key only where no write is pending; the outcome flags in State are the model's (log 5). -/
def Obligations.WaitingStepsChangeOnlyTimers : Prop :=
  ∀ (s : State) (x : Reg), s.loaded = true → s.pc.toNat ≤ 4094 →
    decodeWord (s.mem.read s.pc.toNat ++ s.mem.read (s.pc.toNat + 1)) = .opFX0A x →
    (s.keyWrites = [] → ∀ k : Fin 16, s.keys[k] = false) → (∀ keys ∈ s.keyWrites, ∀ k : Fin 16, keys[k] = false) →
    ∀ n, n > 0 → ∃ t, Host.Core.run Sys2Proof.core n s = .next t ∧
      t.dt.toNat = s.dt.toNat - n ∧ t.st.toNat = s.st.toNat - n ∧
      t = { s with wait := true, dt := t.dt, st := t.st, keys := t.keys, keyWrites := t.keyWrites, out := t.out }

/-- On a loaded core the host's keypad write replaces all sixteen states, and the step after it, when no other write is pending,
sees exactly them; the reads of a loaded core give the framebuffer and the timers (60_exceptions.md section 5; the list of pending
writes is the model's, log 4). -/
def Obligations.HostWritesKeysAndReadsDevices : Prop :=
  ∀ (s : State) (keys : Keypad), s.loaded = true →
    (∃ t, s.writeKeys keys = some t ∧ t = { s with keys := keys } ∧ (s.keyWrites = [] → t.beginStep.keys = keys)) ∧
    (∀ k rest, s.keyWrites = k :: rest → s.beginStep.keys = k ∧ s.beginStep.keyWrites = rest) ∧
    s.readFramebuffer = some s.fb ∧ s.readTimers = some (s.dt, s.st)

/-! ### Encoding (30_encoding.md) -/

/-- Words written out from the encodings of the spec decode to the instructions they stand for, one of each format and more, and
words of R52 to `unknown`. -/
def Obligations.SpecWordsDecode : Prop :=
  decodeWord 0x00E0 = .op00E0 ∧ decodeWord 0x00EE = .op00EE ∧ decodeWord 0x220A = .op2NNN 0x20A ∧
  decodeWord 0x6005 = .op6XNN 0 5 ∧ decodeWord 0x700A = .op7XNN 0 10 ∧ decodeWord 0x812E = .op8XYE 1 2 ∧
  decodeWord 0x9120 = .op9XY0 1 2 ∧ decodeWord 0xD125 = .opDXYN 1 2 5 ∧ decodeWord 0xE49E = .opEX9E 4 ∧
  decodeWord 0xF265 = .opFX65 2 ∧ decodeWord 0x5121 = .unknown 0x5121 ∧ decodeWord 0x0000 = .unknown 0x0000

/-- Decode and encode agree: the word of every well-formed instruction decodes to it, with every operand at every value. -/
def Obligations.DecodeOfEncodeIsTheInstruction : Prop :=
  ∀ i : Instr, i.wf = true → decodeWord (encode i) = i

/-- Every word decodes to a well-formed instruction whose word it is, so each word has one meaning. -/
def Obligations.EncodeOfDecodeIsTheWord : Prop :=
  ∀ w : Word, (decodeWord w).wf = true ∧ encode (decodeWord w) = w

/-- R50: a word is the instruction of a row of the opcode map exactly when its mask and match say so, and the fallback exactly when no
row does. -/
def Obligations.DecodeFollowsTheOpcodeMap : Prop :=
  ∀ w : Word,
    (∀ r ∈ opcodeRows, w &&& r.mask = r.value ↔ (isUnknown (decodeWord w) = false ∧ (decodeWord w).row = r)) ∧
    (isUnknown (decodeWord w) = true ↔ ∀ r ∈ opcodeRows, w &&& r.mask ≠ r.value)

/-- No word matches two of the rows 1 to 34, and there are 34 of them, all different (30_encoding.md, derived there from the map). -/
def Obligations.OpcodePatternsAreDisjoint : Prop :=
  opcodeRows.length = 34 ∧ opcodeRows.Nodup ∧
  ∀ (w : Word), ∀ r ∈ opcodeRows, ∀ q ∈ opcodeRows, w &&& r.mask = r.value → w &&& q.mask = q.value → r = q

/-- The words that decode to `unknown` are exactly those of the list of unknown encodings (30_encoding.md section 3, derived there from
the decode procedure; strict match is decision D4). -/
def Obligations.UnknownWordsAreTheListedOnes : Prop :=
  ∀ w : Word, decodeWord w = .unknown w ↔ isUnknownWord w = true

/-- An instruction is exactly the first two bytes, big-endian, and the rest of the bytes is left; fewer than two bytes hold none
(30_encoding.md section 1, 20_memory.md section 2). -/
def Obligations.DecodeTakesTwoBytesBigEndian : Prop :=
  (∀ (hi lo : Byte) (rest : List Byte), ∃ w : Word, decodeBytes (hi :: lo :: rest) = .ok (decodeWord w, rest) ∧
    w.toNat = hi.toNat * 256 + lo.toNat) ∧
  (∀ bytes : List Byte, bytes.length < 2 ↔ decodeBytes bytes = .error .truncated)

/-! ### Load and reset (70_reset_and_hazards.md) -/

/-- A load of an image of at most 3584 bytes succeeds from any state, and leaves the font at 0, the image at 0x200, zero in every
other cell, and every other piece of state at its reset value (70_reset_and_hazards.md section 1; decision D22 for the keys). The
font is the state's own open parameter (log 1). -/
def Obligations.LoadPlacesFontAndProgram : Prop :=
  ∀ (s : State) (rom : List Byte), rom.length ≤ 3584 →
    let t := (s.load rom).state
    (s.load rom).error = none ∧
    (∀ a, a < 4096 → t.mem.read a =
      if h : a < 80 then s.font[a] else if h : 512 ≤ a ∧ a - 512 < rom.length then rom[a - 512] else 0) ∧
    (∀ r, t.readV r = 0) ∧ t.i = 0 ∧ t.pc = 0x200 ∧ t.sp.val = 0 ∧ (∀ j : Fin 16, t.stk[j] = 0) ∧
    t.dt = 0 ∧ t.st = 0 ∧ (∀ x y, t.fb.pixel x y = false) ∧ (∀ k : Fin 16, t.keys[k] = false) ∧ t.wait = false ∧
    t.romImg = rom ∧ t.loaded = true ∧ t.font = s.font

/-- R125, R127: `load` fails with RomTooLargeError exactly when the image is longer than 3584 bytes, `reset()` with NotLoadedError
exactly when no load has succeeded, and a failure changes nothing. -/
def Obligations.LoadAndResetFailOnlyAsStated : Prop :=
  ∀ s : State,
    (∀ rom : List Byte, (s.load rom).error = some .romTooLarge ↔ rom.length > 3584) ∧
    (∀ rom : List Byte, (s.load rom).error ≠ none → (s.load rom).state = s) ∧
    (s.hostReset.error = some .notLoaded ↔ s.loaded = false) ∧
    (s.loaded = false → s.hostReset.state = s)

/-- Whatever a loaded core executed, stores over its own program included, `reset()` gives the state of the original load again
(70_reset_and_hazards.md, decision D26), but for the model's own draw counts and pending keypad writes, which go on (log 13). -/
def Obligations.ResetUndoesEveryRun : Prop :=
  ∀ (s t : State) (rom : List Byte) (n : Nat), rom.length ≤ 3584 →
    Host.Core.run Sys2Proof.core n (s.load rom).state = .next t →
    t.hostReset.error = none ∧
    t.hostReset.state = { (s.load rom).state with
      keyWrites := t.keyWrites, rndDraws := t.rndDraws, keyDraws := t.keyDraws }

/-- Execution starts at 0x200, and the first step after a load fetches the first two bytes of the image, or zeros where it is shorter
(70_reset_and_hazards.md section 2). -/
def Obligations.FirstFetchReadsTheImage : Prop :=
  ∀ (s : State) (rom : List Byte), rom.length ≤ 3584 →
    (s.load rom).state.pc = 0x200 ∧
    (s.load rom).state.fetch = .ok (rom.getD 0 0 ++ rom.getD 1 0)

/-- The state the model calls reset is the state after loading the empty image into any core with the default font (log 1, log 6), but
for the model's own draw counts and pending keypad writes (log 13). -/
def Obligations.ResetIsTheLoadOfTheEmptyImage : Prop :=
  ∀ s : State, s.font = defaultFont →
    (s.load []).error = none ∧
    (s.load []).state = { State.reset with
      keyWrites := s.keyWrites, rndDraws := s.rndDraws, keyDraws := s.keyDraws }
end

