-- ==== Sys2Proof/Laws/Memory.lean ====
section
/-! SUPPORT. The laws of memory: read after write, the canonical form, and the same for runs of bytes. -/

namespace Sys2Proof.Machine.Memory

/-! ### One byte -/

@[simp] theorem read_nil (a : Nat) : read [] a = unlisted a := rfl

theorem read_cons (k : Nat) (b : Byte) (m : Memory) (a : Nat) :
    read ((k, b) :: m) a = if k = a then b else read m a := rfl

/-- An address with no entry reads as the unlisted value. -/
theorem read_of_absent (m : Memory) (a : Nat) (h : ∀ c ∈ m, c.1 ≠ a) : m.read a = unlisted a := by
  induction m with
  | nil => rfl
  | cons c m ih =>
    rw [read_cons, if_neg (h c (by simp)), ih fun d hd => h d (by simp [hd])]

theorem read_drop (m : Memory) (a b : Nat) : (m.drop a).read b = if b = a then unlisted a else m.read b := by
  induction m with
  | nil => by_cases h : b = a <;> simp [drop, h]
  | cons c m ih =>
    obtain ⟨k, v⟩ := c
    simp only [drop] at ih
    by_cases hk : k = a
    · by_cases hb : b = a
      · simp only [hb, if_true] at ih
        simp [drop, hk, hb, ih]
      · simp [drop, hk, hb, ih, read_cons, Ne.symm hb]
    · by_cases hb : b = a
      · subst hb; simp [drop, hk, ih, read_cons]
      · simp [drop, hk, hb, ih, read_cons]

theorem absent_drop (m : Memory) (a : Nat) : ∀ c ∈ m.drop a, c.1 ≠ a := by
  intro c hc
  simpa using (List.mem_filter.mp hc).2

theorem read_insert (m : Memory) (a b : Nat) (v : Byte) (h : ∀ c ∈ m, c.1 ≠ a) :
    (m.insert a v).read b = if b = a then v else m.read b := by
  induction m with
  | nil => simp [insert, read_cons, eq_comm]
  | cons c m ih =>
    obtain ⟨k, w⟩ := c
    have hk : k ≠ a := h (k, w) (by simp)
    have ih := ih fun d hd => h d (by simp [hd])
    unfold insert
    split
    · simp [read_cons, eq_comm]
    · by_cases hb : b = a
      · subst hb; simp [read_cons, ih, hk]
      · simp [read_cons, ih, hb]

/-- A read after a write gives the value written at the address written, and the old value at every other. -/
@[simp] theorem read_write (m : Memory) (a b : Nat) (v : Byte) :
    (m.write a v).read b = if b = a then v else m.read b := by
  unfold write
  split
  · next h => rw [read_drop, h]
  · rw [read_insert _ _ _ _ (absent_drop m a), read_drop]
    by_cases h : b = a <;> simp [h]

/-! ### The canonical form -/

theorem mem_insert (m : Memory) (a : Nat) (v : Byte) (c : Host.Cell) : c ∈ m.insert a v ↔ c = (a, v) ∨ c ∈ m := by
  induction m with
  | nil => simp [insert]
  | cons d m ih =>
    obtain ⟨k, w⟩ := d
    unfold insert
    split
    · simp
    · simp only [List.mem_cons, ih]; tauto

theorem wf_nil : wf [] := by simp [wf]

theorem wf_drop (m : Memory) (a : Nat) (h : m.wf) : (m.drop a).wf :=
  ⟨h.1.filter _, fun c hc => h.2 c (List.mem_filter.mp hc).1⟩

theorem pairwise_insert (m : Memory) (a : Nat) (v : Byte) (h : m.Pairwise fun c d => c.1 < d.1)
    (ha : ∀ c ∈ m, c.1 ≠ a) : (m.insert a v).Pairwise fun c d => c.1 < d.1 := by
  induction m with
  | nil => simp [insert]
  | cons d m ih =>
    obtain ⟨k, w⟩ := d
    have hk : k ≠ a := ha (k, w) (by simp)
    obtain ⟨hd, hm⟩ := List.pairwise_cons.mp h
    unfold insert
    split
    · next hlt =>
      refine List.pairwise_cons.mpr ⟨fun c hc => ?_, h⟩
      rcases List.mem_cons.mp hc with rfl | hc
      · exact hlt
      · exact lt_trans hlt (hd c hc)
    · next hlt =>
      refine List.pairwise_cons.mpr ⟨fun c hc => ?_, ih hm fun c hc => ha c (by simp [hc])⟩
      rcases (mem_insert m a v c).mp hc with rfl | hc
      · exact lt_of_le_of_ne (not_lt.mp hlt) hk
      · exact hd c hc

/-- A write inside 0 .. 4095 keeps the canonical form. -/
theorem wf_write (m : Memory) (a : Nat) (v : Byte) (h : m.wf) (ha : a < 4096) : (m.write a v).wf := by
  unfold write
  split
  · exact wf_drop m a h
  · next hv =>
    refine ⟨pairwise_insert _ a v (wf_drop m a h).1 (absent_drop m a), fun c hc => ?_⟩
    rcases (mem_insert _ a v c).mp hc with rfl | hc
    · exact ⟨ha, hv⟩
    · exact (wf_drop m a h).2 c hc

theorem read_of_mem (m : Memory) (h : m.Pairwise fun c d => c.1 < d.1) (c : Host.Cell) (hc : c ∈ m) : m.read c.1 = c.2 := by
  induction m with
  | nil => simp at hc
  | cons d m ih =>
    obtain ⟨k, w⟩ := d
    obtain ⟨hd, hm⟩ := List.pairwise_cons.mp h
    rw [read_cons]
    rcases List.mem_cons.mp hc with rfl | hc
    · simp
    · rw [if_neg (Nat.ne_of_lt (hd c hc)), ih hm hc]

/-- The entries of a canonical memory are the addresses that do not read as the unlisted value. -/
theorem mem_iff_read (m : Memory) (h : m.wf) (c : Host.Cell) : c ∈ m ↔ m.read c.1 = c.2 ∧ c.2 ≠ unlisted c.1 := by
  constructor
  · exact fun hc => ⟨read_of_mem m h.1 c hc, (h.2 c hc).2⟩
  · rintro ⟨hr, hu⟩
    by_contra hc
    refine hu (hr ▸ read_of_absent m c.1 fun d hd hk => hc ?_)
    have := read_of_mem m h.1 d hd
    rw [hk, hr] at this
    exact (Prod.ext hk this.symm : d = c) ▸ hd

/-- Two canonical memories that read alike are the same list. -/
theorem eq_of_read_eq (m n : Memory) (hm : m.wf) (hn : n.wf) (h : ∀ a, m.read a = n.read a) : m = n := by
  have sorted (l : Memory) (hl : l.Pairwise fun c d => c.1 < d.1) :
      l.Pairwise fun c d : Host.Cell => c.1 ≤ d.1 := hl.imp Nat.le_of_lt
  have nodup (l : Memory) (hl : l.Pairwise fun c d => c.1 < d.1) : l.Nodup :=
    hl.imp fun hlt heq => by rw [heq] at hlt; exact lt_irrefl _ hlt
  have perm : m.Perm n := (List.perm_ext_iff_of_nodup (nodup m hm.1) (nodup n hn.1)).mpr fun c => by
    rw [mem_iff_read m hm, mem_iff_read n hn, h]
  refine perm.eq_of_pairwise (fun c d hc hd hcd hdc => ?_) (sorted m hm.1) (sorted n hn.1)
  have hk : c.1 = d.1 := le_antisymm hcd hdc
  exact Prod.ext hk (by rw [← read_of_mem m hm.1 c hc, ← read_of_mem n hn.1 d hd, h, hk])

/-! ### Runs of bytes -/

@[simp] theorem length_readBlock (m : Memory) (a n : Nat) : (m.readBlock a n).length = n := by simp [readBlock]

@[simp] theorem getElem_readBlock (m : Memory) (a n k : Nat) (h : k < (m.readBlock a n).length) :
    (m.readBlock a n)[k] = m.read (a + k) := by simp [readBlock]

@[simp] theorem writeBlock_nil (m : Memory) (a : Nat) : m.writeBlock a [] = m := rfl

theorem writeBlock_cons (m : Memory) (a : Nat) (b : Byte) (bs : List Byte) :
    m.writeBlock a (b :: bs) = (m.write a b).writeBlock (a + 1) bs := rfl

/-- A run of bytes written at `a` is read back byte by byte, and every address outside it reads as before. -/
theorem read_writeBlock (bs : List Byte) (m : Memory) (a k : Nat) :
    (m.writeBlock a bs).read k =
      if h : a ≤ k ∧ k - a < bs.length then bs[k - a] else m.read k := by
  induction bs generalizing m a with
  | nil => simp
  | cons b bs ih =>
    rw [writeBlock_cons, ih, read_write]
    by_cases hk : k = a
    · subst hk; simp
    · by_cases h : a + 1 ≤ k ∧ k - (a + 1) < bs.length
      · have h' : a ≤ k ∧ k - a < (b :: bs).length := by simp; omega
        have e : k - a = (k - (a + 1)) + 1 := by omega
        simp [h, h', e]
      · have h' : ¬(a ≤ k ∧ k - a < (b :: bs).length) := by simp; omega
        rw [dif_neg h, dif_neg h', if_neg hk]

theorem read_writeBlock_outside (bs : List Byte) (m : Memory) (a k : Nat) (h : k < a ∨ a + bs.length ≤ k) :
    (m.writeBlock a bs).read k = m.read k := by
  rw [read_writeBlock, dif_neg (by omega)]

theorem read_writeBlock_inside (bs : List Byte) (m : Memory) (a j : Nat) (h : j < bs.length) :
    (m.writeBlock a bs).read (a + j) = bs[j] := by
  rw [read_writeBlock, dif_pos (by omega)]; simp

/-- Writing a run inside 0 .. 4095 keeps the canonical form. -/
theorem wf_writeBlock (bs : List Byte) (m : Memory) (a : Nat) (h : m.wf) (ha : a + bs.length ≤ 4096) :
    (m.writeBlock a bs).wf := by
  induction bs generalizing m a with
  | nil => exact h
  | cons b bs ih =>
    simp only [List.length_cons] at ha
    exact ih _ _ (wf_write m a b h (by omega)) (by omega)

end Sys2Proof.Machine.Memory
end

