-- ==== Sys2Proof/Laws/Boundary.lean ====
section
/-! SUPPORT. What each operation of the host can do. -/

namespace Sys2Proof.Machine

/-- A load fails and changes nothing above 3584 bytes, and otherwise leaves the loaded state. -/
theorem load_cases (s : State) (rom : List Byte) :
    (rom.length > 3584 ∧ s.load rom = ⟨s, some .romTooLarge⟩) ∨
    (rom.length ≤ 3584 ∧ s.load rom = ⟨s.loadedWith rom, none⟩) := by
  by_cases h : rom.length > 3584
  · exact .inl ⟨h, if_pos h⟩
  · exact .inr ⟨by omega, if_neg h⟩

/-- `reset()` fails and changes nothing on an unloaded core, and otherwise loads the retained image. -/
theorem hostReset_cases (s : State) :
    (s.loaded = false ∧ s.hostReset = ⟨s, some .notLoaded⟩) ∨ (s.loaded = true ∧ s.hostReset = s.load s.romImg) := by
  unfold State.hostReset
  cases s.loaded <;> simp

/-- The keypad write has a result exactly on a loaded core, and then it replaces KEYS alone. -/
theorem writeKeys_eq_some (s t : State) (keys : Keypad) :
    s.writeKeys keys = some t ↔ s.loaded = true ∧ t = { s with keys := keys } := by
  unfold State.writeKeys
  cases h : s.loaded <;> simp [State.setKeys, h, eq_comm]

theorem writeKeys_eq_none (s : State) (keys : Keypad) : s.writeKeys keys = none ↔ s.loaded = false := by
  unfold State.writeKeys
  cases s.loaded <;> simp

theorem readFramebuffer_eq_none (s : State) : s.readFramebuffer = none ↔ s.loaded = false := by
  unfold State.readFramebuffer
  cases s.loaded <;> simp

theorem readTimers_eq_none (s : State) : s.readTimers = none ↔ s.loaded = false := by
  unfold State.readTimers
  cases s.loaded <;> simp

/-- Memory after a load is in its canonical form. -/
theorem wf_loadedMemory (font : Vector Byte 80) (rom : List Byte) (h : rom.length ≤ 3584) : (loadedMemory font rom).wf :=
  Memory.wf_writeBlock _ _ _ (Memory.wf_writeBlock _ _ _ Memory.wf_nil (by simp)) (by simp; omega)

/-- A byte after a load: the image where it lies, else the font below 80, else 0. -/
theorem read_loadedMemory (font : Vector Byte 80) (rom : List Byte) (a : Nat) :
    (loadedMemory font rom).read a =
      if h : 512 ≤ a ∧ a - 512 < rom.length then rom[a - 512] else if h : a < 80 then font[a] else 0 := by
  unfold loadedMemory
  rw [Memory.read_writeBlock, Memory.read_writeBlock]
  split
  · rfl
  · by_cases h : a < 80
    · rw [dif_pos (by simpa using h), dif_pos h]; simp
    · rw [dif_neg (by simpa using h), dif_neg h]; simp [Memory.read, Memory.unlisted, h]

end Sys2Proof.Machine
end

