-- ==== Sys2Proof/Laws/Display.lean ====
section
/-! SUPPORT. What drawing a sprite does to the framebuffer: a drawing is the toggling of a list of distinct pixels, the spots. -/

namespace Sys2Proof.Machine

/-! ### Pixels -/

@[simp] theorem Framebuffer.pixel_clear (x : Fin 64) (y : Fin 32) : Framebuffer.clear.pixel x y = false := by
  simp [Framebuffer.clear, Framebuffer.pixel]

@[simp] theorem Framebuffer.pixel_flip (fb : Framebuffer) (x x' : Fin 64) (y y' : Fin 32) :
    (fb.flip x y).pixel x' y' = if x' = x ∧ y' = y then !fb.pixel x y else fb.pixel x' y' := by
  by_cases hy : y' = y
  · subst hy
    by_cases hx : x' = x
    · subst hx; simp [Framebuffer.flip, Framebuffer.pixel]
    · have : x.val ≠ x'.val := fun h => hx (Fin.ext h.symm)
      simp [Framebuffer.flip, Framebuffer.pixel, hx, this]
  · have : y.val ≠ y'.val := fun h => hy (Fin.ext h.symm)
    simp [Framebuffer.flip, Framebuffer.pixel, hy, this]

/-- Two framebuffers with the same pixels are the same. -/
theorem Framebuffer.ext_pixel {f g : Framebuffer} (h : ∀ x y, f.pixel x y = g.pixel x y) : f = g :=
  Vector.ext fun y hy => Vector.ext fun x hx => h ⟨x, hx⟩ ⟨y, hy⟩

/-! ### Toggling a list of pixels -/

/-- The pixels a sprite row toggles. -/
def rowSpots (x0 y : Nat) (row : Byte) : List (Fin 64 × Fin 32) :=
  ((List.range 8).filter fun c => row.getLsbD (7 - c)).map fun c => (wrapX (x0 + c), wrapY y)

/-- The pixels a sprite toggles, row by row. -/
def spots (x0 y : Nat) : List Byte → List (Fin 64 × Fin 32)
  | [] => []
  | b :: bs => rowSpots x0 y b ++ spots x0 (y + 1) bs

/-- Toggle the pixels of a list one after the other. -/
def Drawing.toggleAll (d : Drawing) (l : List (Fin 64 × Fin 32)) : Drawing := l.foldl (fun d p => d.toggle p.1 p.2) d

theorem Drawing.row_eq_toggleAll (d : Drawing) (x0 y : Nat) (b : Byte) : d.row x0 y b = d.toggleAll (rowSpots x0 y b) := by
  unfold Drawing.row Drawing.toggleAll rowSpots
  rw [List.foldl_map, List.foldl_filter]
  rfl

theorem Drawing.rows_eq_toggleAll (bs : List Byte) (d : Drawing) (x0 y : Nat) :
    d.rows x0 y bs = d.toggleAll (spots x0 y bs) := by
  induction bs generalizing d y with
  | nil => rfl
  | cons b bs ih =>
    rw [Drawing.rows, ih, Drawing.row_eq_toggleAll]
    simp [spots, Drawing.toggleAll, List.foldl_append]

/-- Toggling distinct pixels inverts each once, and collides when one of them was on before. -/
theorem Drawing.toggleAll_spec (l : List (Fin 64 × Fin 32)) (d : Drawing) (hl : l.Nodup) :
    (∀ x y, (d.toggleAll l).fb.pixel x y = (d.fb.pixel x y ^^ decide ((x, y) ∈ l))) ∧
    ((d.toggleAll l).collision = true ↔ d.collision = true ∨ ∃ p ∈ l, d.fb.pixel p.1 p.2 = true) := by
  induction l generalizing d with
  | nil => simp [Drawing.toggleAll]
  | cons p l ih =>
    obtain ⟨hp, hl⟩ := List.nodup_cons.mp hl
    obtain ⟨hpix, hcol⟩ := ih (d.toggle p.1 p.2) hl
    have step : d.toggleAll (p :: l) = (d.toggle p.1 p.2).toggleAll l := rfl
    rw [step]
    constructor
    · intro x y
      rw [hpix]
      simp only [Drawing.toggle, Framebuffer.pixel_flip]
      by_cases h : (x, y) = p
      · subst h; simp [hp]
      · have h' : ¬(x = p.1 ∧ y = p.2) := fun ⟨hx, hy⟩ => h (Prod.ext hx hy)
        simp [h, h']
    · rw [hcol]
      have other : ∀ q ∈ l, (d.toggle p.1 p.2).fb.pixel q.1 q.2 = d.fb.pixel q.1 q.2 := fun q hq => by
        have : ¬(q.1 = p.1 ∧ q.2 = p.2) := fun ⟨hx, hy⟩ => hp ((Prod.ext hx hy : q = p) ▸ hq)
        simp [Drawing.toggle, this]
      have : (∃ q ∈ l, (d.toggle p.1 p.2).fb.pixel q.1 q.2 = true) ↔ ∃ q ∈ l, d.fb.pixel q.1 q.2 = true :=
        exists_congr fun q => and_congr_right fun hq => by rw [other q hq]
      rw [this]
      simp only [Drawing.toggle, Bool.or_eq_true, List.mem_cons, exists_eq_or_imp]
      tauto

/-! ### The spots of a sprite -/

theorem mem_rowSpots (x0 y : Nat) (b : Byte) (p : Fin 64 × Fin 32) :
    p ∈ rowSpots x0 y b ↔ ∃ c < 8, b.getLsbD (7 - c) = true ∧ p.1.val = (x0 + c) % 64 ∧ p.2.val = y % 32 := by
  simp only [rowSpots, List.mem_map, List.mem_filter, List.mem_range]
  constructor
  · rintro ⟨c, ⟨hc, hb⟩, rfl⟩
    exact ⟨c, hc, hb, rfl, rfl⟩
  · rintro ⟨c, hc, hb, hx, hy⟩
    exact ⟨c, ⟨hc, hb⟩, Prod.ext (Fin.ext hx.symm) (Fin.ext hy.symm)⟩

theorem mem_spots (bs : List Byte) (x0 y : Nat) (p : Fin 64 × Fin 32) :
    p ∈ spots x0 y bs ↔ ∃ r, ∃ h : r < bs.length, ∃ c < 8,
      bs[r].getLsbD (7 - c) = true ∧ p.1.val = (x0 + c) % 64 ∧ p.2.val = (y + r) % 32 := by
  induction bs generalizing y with
  | nil => simp [spots]
  | cons b bs ih =>
    rw [spots, List.mem_append, mem_rowSpots, ih]
    constructor
    · rintro (⟨c, hc, h⟩ | ⟨r, hr, c, hc, hb, hx, hy⟩)
      · exact ⟨0, by simp, c, hc, h⟩
      · exact ⟨r + 1, by simpa using hr, c, hc, by simpa using hb, hx, by rw [hy]; congr 1; omega⟩
    · rintro ⟨r, hr, c, hc, hb, hx, hy⟩
      cases r with
      | zero => exact .inl ⟨c, hc, by simpa using hb, hx, by simpa using hy⟩
      | succ r =>
        exact .inr ⟨r, by simpa using hr, c, hc, by simpa using hb, hx, by rw [hy]; congr 1; omega⟩

/-- At most 32 consecutive rows of 8 columns are distinct pixels (44_display.md R97). -/
theorem nodup_spots (bs : List Byte) (x0 y : Nat) (h : bs.length ≤ 32) : (spots x0 y bs).Nodup := by
  induction bs generalizing y with
  | nil => simp [spots]
  | cons b bs ih =>
    simp only [List.length_cons] at h
    refine List.nodup_append.mpr ⟨?_, ih (y + 1) (by omega), ?_⟩
    · refine List.Nodup.map_on (fun c hc d hd hcd => ?_) (List.nodup_range.filter _)
      have hx := congrArg (fun p : Fin 64 × Fin 32 => p.1.val) hcd
      simp only [wrapX, List.mem_filter, List.mem_range] at hx hc hd
      omega
    · rintro p hp q hq rfl
      obtain ⟨c, -, -, -, hy⟩ := (mem_rowSpots x0 y b p).mp hp
      obtain ⟨r, hr, c', -, -, -, hy'⟩ := (mem_spots bs x0 (y + 1) p).mp hq
      omega

/-- The spots of a sprite in memory are the pixels it covers. -/
theorem mem_spots_readBlock (m : Memory) (base n x0 y0 : Nat) (x : Fin 64) (y : Fin 32) :
    (x, y) ∈ spots x0 y0 (m.readBlock base n) ↔ spriteCovers m base n x0 y0 x y := by
  rw [mem_spots]
  simp only [spriteCovers, Memory.getElem_readBlock, Memory.length_readBlock, exists_prop]

/-- Everything drawing a sprite of at most 32 rows does: each covered pixel is inverted, and no other; there is a collision when a
covered pixel was on. -/
theorem drawSprite_spec (fb : Framebuffer) (m : Memory) (base n x0 y0 : Nat) (hn : n ≤ 32) :
    let d := drawSprite fb x0 y0 (m.readBlock base n)
    (∀ x y, d.fb.pixel x y = true ↔ (fb.pixel x y = true ↔ ¬spriteCovers m base n x0 y0 x y)) ∧
    (d.collision = true ↔ ∃ x y, fb.pixel x y = true ∧ spriteCovers m base n x0 y0 x y) := by
  intro d
  have hd : d = Drawing.toggleAll { fb := fb, collision := false } (spots x0 y0 (m.readBlock base n)) :=
    Drawing.rows_eq_toggleAll _ _ _ _
  obtain ⟨hpix, hcol⟩ := Drawing.toggleAll_spec (spots x0 y0 (m.readBlock base n)) { fb := fb, collision := false }
    (nodup_spots _ x0 y0 (by simpa using hn))
  rw [hd]
  constructor
  · intro x y
    rw [hpix, ← mem_spots_readBlock]
    by_cases h : (x, y) ∈ spots x0 y0 (m.readBlock base n) <;> simp [h]
  · rw [hcol]
    constructor
    · rintro (h | ⟨p, hp, hon⟩)
      · simp at h
      · exact ⟨p.1, p.2, hon, (mem_spots_readBlock ..).mp hp⟩
    · rintro ⟨x, y, hon, hc⟩
      exact .inr ⟨(x, y), (mem_spots_readBlock ..).mpr hc, hon⟩

end Sys2Proof.Machine
end

