-- ==== Sys2Proof/Laws/Encoding.lean ====
section
/-! SUPPORT. The fields of a word as numbers, and the fields of a word put together by each format of the encoder. -/

namespace Sys2Proof.Laws

/-- Two appended fields as a number. -/
theorem toNat_append_eq {m n : Nat} (a : BitVec m) (b : BitVec n) : (a ++ b).toNat = a.toNat * 2 ^ n + b.toNat := by
  rw [BitVec.toNat_append, ← Nat.shiftLeft_add_eq_or_of_lt b.isLt, Nat.shiftLeft_eq]

@[simp] theorem toNat_nibble (x : Fin 16) : (nibble x).toNat = x.val := rfl

/-! ### Fields of any word -/

theorem toNat_fieldFamily (w : Word) : (fieldFamily w).toNat = w.toNat / 4096 := by
  have := w.isLt
  simp only [fieldFamily, BitVec.extractLsb'_toNat, Nat.shiftRight_eq_div_pow]
  omega

theorem val_fieldX (w : Word) : (fieldX w).val = w.toNat / 256 % 16 := by
  have h : (fieldX w).val = (w.extractLsb' 8 4).toNat := rfl
  rw [h, BitVec.extractLsb'_toNat, Nat.shiftRight_eq_div_pow]

theorem val_fieldY (w : Word) : (fieldY w).val = w.toNat / 16 % 16 := by
  have h : (fieldY w).val = (w.extractLsb' 4 4).toNat := rfl
  rw [h, BitVec.extractLsb'_toNat, Nat.shiftRight_eq_div_pow]

theorem val_fieldN (w : Word) : (fieldN w).val = w.toNat % 16 := by
  have h : (fieldN w).val = (w.extractLsb' 0 4).toNat := rfl
  rw [h, BitVec.extractLsb'_toNat, Nat.shiftRight_zero]

theorem toNat_fieldSub (w : Word) : (fieldSub w).toNat = w.toNat % 16 := by
  simp [fieldSub, BitVec.extractLsb'_toNat]

theorem toNat_fieldNN (w : Word) : (fieldNN w).toNat = w.toNat % 256 := by
  simp [fieldNN, BitVec.extractLsb'_toNat]

theorem toNat_fieldNNN (w : Word) : (fieldNNN w).toNat = w.toNat % 4096 := by
  simp [fieldNNN, BitVec.extractLsb'_toNat]

/-! ### The word of each format as a number -/

theorem toNat_encodeA (f : BitVec 4) (nnn : Addr12) : (encodeA f nnn).toNat = f.toNat * 4096 + nnn.toNat :=
  toNat_append_eq f nnn

theorem toNat_encodeXI (f : BitVec 4) (x : Reg) (nn : Byte) :
    (encodeXI f x nn).toNat = f.toNat * 4096 + x.val * 256 + nn.toNat := by
  have h : (encodeXI f x nn).toNat = (f ++ nibble x).toNat * 2 ^ 8 + nn.toNat := toNat_append_eq _ _
  rw [h, toNat_append_eq, toNat_nibble]
  omega

theorem toNat_encodeXY (f : BitVec 4) (x y : Reg) (sub : BitVec 4) :
    (encodeXY f x y sub).toNat = f.toNat * 4096 + x.val * 256 + y.val * 16 + sub.toNat := by
  have h : (encodeXY f x y sub).toNat = (f ++ nibble x ++ nibble y).toNat * 2 ^ 4 + sub.toNat := toNat_append_eq _ _
  rw [h, toNat_append_eq, toNat_append_eq, toNat_nibble, toNat_nibble]
  omega

theorem toNat_encodeXYN (x y : Reg) (n : RowCount) :
    (encodeXYN x y n).toNat = 0xD000 + x.val * 256 + y.val * 16 + n.val := by
  have h : encodeXYN x y n = encodeXY 0xD x y (nibble n) := rfl
  rw [h, toNat_encodeXY, toNat_nibble]
  rfl

theorem toNat_encodeXS (f : BitVec 4) (x : Reg) (sub : Byte) :
    (encodeXS f x sub).toNat = f.toNat * 4096 + x.val * 256 + sub.toNat := toNat_encodeXI f x sub

/-- A word from its two bytes, as a number (20_memory.md R32). -/
theorem toNat_wordOfBytes (hi lo : Byte) : (wordOfBytes hi lo).toNat = hi.toNat * 256 + lo.toNat := toNat_append_eq hi lo

/-- The two bytes of a word put together again. -/
theorem wordOfBytes_bytesOfWord (w : Word) : wordOfBytes (w.extractLsb' 8 8) (w.extractLsb' 0 8) = w := by
  apply BitVec.eq_of_toNat_eq
  have := w.isLt
  rw [toNat_wordOfBytes]
  simp only [BitVec.extractLsb'_toNat, Nat.shiftRight_eq_div_pow]
  omega

end Sys2Proof.Laws
end

