-- ==== Sys2Proof/Laws/State.lean ====
section
/-! SUPPORT. One lemma per field and update of the state, each true by rfl, so that no later proof unfolds a record update. -/

namespace Sys2Proof.Machine

/-! ### State.writeV -/

@[simp] theorem State.writeV_v (s : State) (r : Reg) (b : Byte) : (s.writeV r b).v = s.v.set r b := rfl
@[simp] theorem State.writeV_i (s : State) (r : Reg) (b : Byte) : (s.writeV r b).i = s.i := rfl
@[simp] theorem State.writeV_pc (s : State) (r : Reg) (b : Byte) : (s.writeV r b).pc = s.pc := rfl
@[simp] theorem State.writeV_sp (s : State) (r : Reg) (b : Byte) : (s.writeV r b).sp = s.sp := rfl
@[simp] theorem State.writeV_stk (s : State) (r : Reg) (b : Byte) : (s.writeV r b).stk = s.stk := rfl
@[simp] theorem State.writeV_dt (s : State) (r : Reg) (b : Byte) : (s.writeV r b).dt = s.dt := rfl
@[simp] theorem State.writeV_st (s : State) (r : Reg) (b : Byte) : (s.writeV r b).st = s.st := rfl
@[simp] theorem State.writeV_mem (s : State) (r : Reg) (b : Byte) : (s.writeV r b).mem = s.mem := rfl
@[simp] theorem State.writeV_fb (s : State) (r : Reg) (b : Byte) : (s.writeV r b).fb = s.fb := rfl
@[simp] theorem State.writeV_keys (s : State) (r : Reg) (b : Byte) : (s.writeV r b).keys = s.keys := rfl
@[simp] theorem State.writeV_wait (s : State) (r : Reg) (b : Byte) : (s.writeV r b).wait = s.wait := rfl
@[simp] theorem State.writeV_romImg (s : State) (r : Reg) (b : Byte) : (s.writeV r b).romImg = s.romImg := rfl
@[simp] theorem State.writeV_loaded (s : State) (r : Reg) (b : Byte) : (s.writeV r b).loaded = s.loaded := rfl
@[simp] theorem State.writeV_font (s : State) (r : Reg) (b : Byte) : (s.writeV r b).font = s.font := rfl
@[simp] theorem State.writeV_out (s : State) (r : Reg) (b : Byte) : (s.writeV r b).out = s.out := rfl
@[simp] theorem State.writeV_keyWrites (s : State) (r : Reg) (b : Byte) : (s.writeV r b).keyWrites = s.keyWrites := rfl
@[simp] theorem State.writeV_rndDraws (s : State) (r : Reg) (b : Byte) : (s.writeV r b).rndDraws = s.rndDraws := rfl
@[simp] theorem State.writeV_keyDraws (s : State) (r : Reg) (b : Byte) : (s.writeV r b).keyDraws = s.keyDraws := rfl
@[simp] theorem State.writeV_base (s : State) (r : Reg) (b : Byte) : (s.writeV r b).base = s.base := rfl

/-! ### State.setRegs -/

@[simp] theorem State.setRegs_v (s : State) (w : Vector Byte 16) : (s.setRegs w).v = w := rfl
@[simp] theorem State.setRegs_i (s : State) (w : Vector Byte 16) : (s.setRegs w).i = s.i := rfl
@[simp] theorem State.setRegs_pc (s : State) (w : Vector Byte 16) : (s.setRegs w).pc = s.pc := rfl
@[simp] theorem State.setRegs_sp (s : State) (w : Vector Byte 16) : (s.setRegs w).sp = s.sp := rfl
@[simp] theorem State.setRegs_stk (s : State) (w : Vector Byte 16) : (s.setRegs w).stk = s.stk := rfl
@[simp] theorem State.setRegs_dt (s : State) (w : Vector Byte 16) : (s.setRegs w).dt = s.dt := rfl
@[simp] theorem State.setRegs_st (s : State) (w : Vector Byte 16) : (s.setRegs w).st = s.st := rfl
@[simp] theorem State.setRegs_mem (s : State) (w : Vector Byte 16) : (s.setRegs w).mem = s.mem := rfl
@[simp] theorem State.setRegs_fb (s : State) (w : Vector Byte 16) : (s.setRegs w).fb = s.fb := rfl
@[simp] theorem State.setRegs_keys (s : State) (w : Vector Byte 16) : (s.setRegs w).keys = s.keys := rfl
@[simp] theorem State.setRegs_wait (s : State) (w : Vector Byte 16) : (s.setRegs w).wait = s.wait := rfl
@[simp] theorem State.setRegs_romImg (s : State) (w : Vector Byte 16) : (s.setRegs w).romImg = s.romImg := rfl
@[simp] theorem State.setRegs_loaded (s : State) (w : Vector Byte 16) : (s.setRegs w).loaded = s.loaded := rfl
@[simp] theorem State.setRegs_font (s : State) (w : Vector Byte 16) : (s.setRegs w).font = s.font := rfl
@[simp] theorem State.setRegs_out (s : State) (w : Vector Byte 16) : (s.setRegs w).out = s.out := rfl
@[simp] theorem State.setRegs_keyWrites (s : State) (w : Vector Byte 16) : (s.setRegs w).keyWrites = s.keyWrites := rfl
@[simp] theorem State.setRegs_rndDraws (s : State) (w : Vector Byte 16) : (s.setRegs w).rndDraws = s.rndDraws := rfl
@[simp] theorem State.setRegs_keyDraws (s : State) (w : Vector Byte 16) : (s.setRegs w).keyDraws = s.keyDraws := rfl
@[simp] theorem State.setRegs_base (s : State) (w : Vector Byte 16) : (s.setRegs w).base = s.base := rfl

/-! ### State.setI -/

@[simp] theorem State.setI_v (s : State) (a : Word) : (s.setI a).v = s.v := rfl
@[simp] theorem State.setI_i (s : State) (a : Word) : (s.setI a).i = a := rfl
@[simp] theorem State.setI_pc (s : State) (a : Word) : (s.setI a).pc = s.pc := rfl
@[simp] theorem State.setI_sp (s : State) (a : Word) : (s.setI a).sp = s.sp := rfl
@[simp] theorem State.setI_stk (s : State) (a : Word) : (s.setI a).stk = s.stk := rfl
@[simp] theorem State.setI_dt (s : State) (a : Word) : (s.setI a).dt = s.dt := rfl
@[simp] theorem State.setI_st (s : State) (a : Word) : (s.setI a).st = s.st := rfl
@[simp] theorem State.setI_mem (s : State) (a : Word) : (s.setI a).mem = s.mem := rfl
@[simp] theorem State.setI_fb (s : State) (a : Word) : (s.setI a).fb = s.fb := rfl
@[simp] theorem State.setI_keys (s : State) (a : Word) : (s.setI a).keys = s.keys := rfl
@[simp] theorem State.setI_wait (s : State) (a : Word) : (s.setI a).wait = s.wait := rfl
@[simp] theorem State.setI_romImg (s : State) (a : Word) : (s.setI a).romImg = s.romImg := rfl
@[simp] theorem State.setI_loaded (s : State) (a : Word) : (s.setI a).loaded = s.loaded := rfl
@[simp] theorem State.setI_font (s : State) (a : Word) : (s.setI a).font = s.font := rfl
@[simp] theorem State.setI_out (s : State) (a : Word) : (s.setI a).out = s.out := rfl
@[simp] theorem State.setI_keyWrites (s : State) (a : Word) : (s.setI a).keyWrites = s.keyWrites := rfl
@[simp] theorem State.setI_rndDraws (s : State) (a : Word) : (s.setI a).rndDraws = s.rndDraws := rfl
@[simp] theorem State.setI_keyDraws (s : State) (a : Word) : (s.setI a).keyDraws = s.keyDraws := rfl
@[simp] theorem State.setI_readV (s : State) (a : Word) (q : Reg) : (s.setI a).readV q = s.readV q := rfl

/-! ### State.setPc -/

@[simp] theorem State.setPc_v (s : State) (a : Word) : (s.setPc a).v = s.v := rfl
@[simp] theorem State.setPc_i (s : State) (a : Word) : (s.setPc a).i = s.i := rfl
@[simp] theorem State.setPc_pc (s : State) (a : Word) : (s.setPc a).pc = a := rfl
@[simp] theorem State.setPc_sp (s : State) (a : Word) : (s.setPc a).sp = s.sp := rfl
@[simp] theorem State.setPc_stk (s : State) (a : Word) : (s.setPc a).stk = s.stk := rfl
@[simp] theorem State.setPc_dt (s : State) (a : Word) : (s.setPc a).dt = s.dt := rfl
@[simp] theorem State.setPc_st (s : State) (a : Word) : (s.setPc a).st = s.st := rfl
@[simp] theorem State.setPc_mem (s : State) (a : Word) : (s.setPc a).mem = s.mem := rfl
@[simp] theorem State.setPc_fb (s : State) (a : Word) : (s.setPc a).fb = s.fb := rfl
@[simp] theorem State.setPc_keys (s : State) (a : Word) : (s.setPc a).keys = s.keys := rfl
@[simp] theorem State.setPc_wait (s : State) (a : Word) : (s.setPc a).wait = s.wait := rfl
@[simp] theorem State.setPc_romImg (s : State) (a : Word) : (s.setPc a).romImg = s.romImg := rfl
@[simp] theorem State.setPc_loaded (s : State) (a : Word) : (s.setPc a).loaded = s.loaded := rfl
@[simp] theorem State.setPc_font (s : State) (a : Word) : (s.setPc a).font = s.font := rfl
@[simp] theorem State.setPc_out (s : State) (a : Word) : (s.setPc a).out = s.out := rfl
@[simp] theorem State.setPc_keyWrites (s : State) (a : Word) : (s.setPc a).keyWrites = s.keyWrites := rfl
@[simp] theorem State.setPc_rndDraws (s : State) (a : Word) : (s.setPc a).rndDraws = s.rndDraws := rfl
@[simp] theorem State.setPc_keyDraws (s : State) (a : Word) : (s.setPc a).keyDraws = s.keyDraws := rfl
@[simp] theorem State.setPc_readV (s : State) (a : Word) (q : Reg) : (s.setPc a).readV q = s.readV q := rfl
@[simp] theorem State.setPc_base (s : State) (a : Word) : (s.setPc a).base = s.base := rfl

/-! ### State.setSp -/

@[simp] theorem State.setSp_v (s : State) (n : Fin 17) : (s.setSp n).v = s.v := rfl
@[simp] theorem State.setSp_i (s : State) (n : Fin 17) : (s.setSp n).i = s.i := rfl
@[simp] theorem State.setSp_pc (s : State) (n : Fin 17) : (s.setSp n).pc = s.pc := rfl
@[simp] theorem State.setSp_sp (s : State) (n : Fin 17) : (s.setSp n).sp = n := rfl
@[simp] theorem State.setSp_stk (s : State) (n : Fin 17) : (s.setSp n).stk = s.stk := rfl
@[simp] theorem State.setSp_dt (s : State) (n : Fin 17) : (s.setSp n).dt = s.dt := rfl
@[simp] theorem State.setSp_st (s : State) (n : Fin 17) : (s.setSp n).st = s.st := rfl
@[simp] theorem State.setSp_mem (s : State) (n : Fin 17) : (s.setSp n).mem = s.mem := rfl
@[simp] theorem State.setSp_fb (s : State) (n : Fin 17) : (s.setSp n).fb = s.fb := rfl
@[simp] theorem State.setSp_keys (s : State) (n : Fin 17) : (s.setSp n).keys = s.keys := rfl
@[simp] theorem State.setSp_wait (s : State) (n : Fin 17) : (s.setSp n).wait = s.wait := rfl
@[simp] theorem State.setSp_romImg (s : State) (n : Fin 17) : (s.setSp n).romImg = s.romImg := rfl
@[simp] theorem State.setSp_loaded (s : State) (n : Fin 17) : (s.setSp n).loaded = s.loaded := rfl
@[simp] theorem State.setSp_font (s : State) (n : Fin 17) : (s.setSp n).font = s.font := rfl
@[simp] theorem State.setSp_out (s : State) (n : Fin 17) : (s.setSp n).out = s.out := rfl
@[simp] theorem State.setSp_keyWrites (s : State) (n : Fin 17) : (s.setSp n).keyWrites = s.keyWrites := rfl
@[simp] theorem State.setSp_rndDraws (s : State) (n : Fin 17) : (s.setSp n).rndDraws = s.rndDraws := rfl
@[simp] theorem State.setSp_keyDraws (s : State) (n : Fin 17) : (s.setSp n).keyDraws = s.keyDraws := rfl
@[simp] theorem State.setSp_readV (s : State) (n : Fin 17) (q : Reg) : (s.setSp n).readV q = s.readV q := rfl
@[simp] theorem State.setSp_base (s : State) (n : Fin 17) : (s.setSp n).base = s.base := rfl

/-! ### State.writeStk -/

@[simp] theorem State.writeStk_v (s : State) (j : Fin 16) (a : Word) : (s.writeStk j a).v = s.v := rfl
@[simp] theorem State.writeStk_i (s : State) (j : Fin 16) (a : Word) : (s.writeStk j a).i = s.i := rfl
@[simp] theorem State.writeStk_pc (s : State) (j : Fin 16) (a : Word) : (s.writeStk j a).pc = s.pc := rfl
@[simp] theorem State.writeStk_sp (s : State) (j : Fin 16) (a : Word) : (s.writeStk j a).sp = s.sp := rfl
@[simp] theorem State.writeStk_stk (s : State) (j : Fin 16) (a : Word) : (s.writeStk j a).stk = s.stk.set j a := rfl
@[simp] theorem State.writeStk_dt (s : State) (j : Fin 16) (a : Word) : (s.writeStk j a).dt = s.dt := rfl
@[simp] theorem State.writeStk_st (s : State) (j : Fin 16) (a : Word) : (s.writeStk j a).st = s.st := rfl
@[simp] theorem State.writeStk_mem (s : State) (j : Fin 16) (a : Word) : (s.writeStk j a).mem = s.mem := rfl
@[simp] theorem State.writeStk_fb (s : State) (j : Fin 16) (a : Word) : (s.writeStk j a).fb = s.fb := rfl
@[simp] theorem State.writeStk_keys (s : State) (j : Fin 16) (a : Word) : (s.writeStk j a).keys = s.keys := rfl
@[simp] theorem State.writeStk_wait (s : State) (j : Fin 16) (a : Word) : (s.writeStk j a).wait = s.wait := rfl
@[simp] theorem State.writeStk_romImg (s : State) (j : Fin 16) (a : Word) : (s.writeStk j a).romImg = s.romImg := rfl
@[simp] theorem State.writeStk_loaded (s : State) (j : Fin 16) (a : Word) : (s.writeStk j a).loaded = s.loaded := rfl
@[simp] theorem State.writeStk_font (s : State) (j : Fin 16) (a : Word) : (s.writeStk j a).font = s.font := rfl
@[simp] theorem State.writeStk_out (s : State) (j : Fin 16) (a : Word) : (s.writeStk j a).out = s.out := rfl
@[simp] theorem State.writeStk_keyWrites (s : State) (j : Fin 16) (a : Word) : (s.writeStk j a).keyWrites = s.keyWrites := rfl
@[simp] theorem State.writeStk_rndDraws (s : State) (j : Fin 16) (a : Word) : (s.writeStk j a).rndDraws = s.rndDraws := rfl
@[simp] theorem State.writeStk_keyDraws (s : State) (j : Fin 16) (a : Word) : (s.writeStk j a).keyDraws = s.keyDraws := rfl
@[simp] theorem State.writeStk_readV (s : State) (j : Fin 16) (a : Word) (q : Reg) : (s.writeStk j a).readV q = s.readV q := rfl
@[simp] theorem State.writeStk_base (s : State) (j : Fin 16) (a : Word) : (s.writeStk j a).base = s.base := rfl

/-! ### State.setDt -/

@[simp] theorem State.setDt_v (s : State) (b : Byte) : (s.setDt b).v = s.v := rfl
@[simp] theorem State.setDt_i (s : State) (b : Byte) : (s.setDt b).i = s.i := rfl
@[simp] theorem State.setDt_pc (s : State) (b : Byte) : (s.setDt b).pc = s.pc := rfl
@[simp] theorem State.setDt_sp (s : State) (b : Byte) : (s.setDt b).sp = s.sp := rfl
@[simp] theorem State.setDt_stk (s : State) (b : Byte) : (s.setDt b).stk = s.stk := rfl
@[simp] theorem State.setDt_dt (s : State) (b : Byte) : (s.setDt b).dt = b := rfl
@[simp] theorem State.setDt_st (s : State) (b : Byte) : (s.setDt b).st = s.st := rfl
@[simp] theorem State.setDt_mem (s : State) (b : Byte) : (s.setDt b).mem = s.mem := rfl
@[simp] theorem State.setDt_fb (s : State) (b : Byte) : (s.setDt b).fb = s.fb := rfl
@[simp] theorem State.setDt_keys (s : State) (b : Byte) : (s.setDt b).keys = s.keys := rfl
@[simp] theorem State.setDt_wait (s : State) (b : Byte) : (s.setDt b).wait = s.wait := rfl
@[simp] theorem State.setDt_romImg (s : State) (b : Byte) : (s.setDt b).romImg = s.romImg := rfl
@[simp] theorem State.setDt_loaded (s : State) (b : Byte) : (s.setDt b).loaded = s.loaded := rfl
@[simp] theorem State.setDt_font (s : State) (b : Byte) : (s.setDt b).font = s.font := rfl
@[simp] theorem State.setDt_out (s : State) (b : Byte) : (s.setDt b).out = s.out := rfl
@[simp] theorem State.setDt_keyWrites (s : State) (b : Byte) : (s.setDt b).keyWrites = s.keyWrites := rfl
@[simp] theorem State.setDt_rndDraws (s : State) (b : Byte) : (s.setDt b).rndDraws = s.rndDraws := rfl
@[simp] theorem State.setDt_keyDraws (s : State) (b : Byte) : (s.setDt b).keyDraws = s.keyDraws := rfl
@[simp] theorem State.setDt_readV (s : State) (b : Byte) (q : Reg) : (s.setDt b).readV q = s.readV q := rfl
@[simp] theorem State.setDt_base (s : State) (b : Byte) : (s.setDt b).base = s.base := rfl

/-! ### State.setSt -/

@[simp] theorem State.setSt_v (s : State) (b : Byte) : (s.setSt b).v = s.v := rfl
@[simp] theorem State.setSt_i (s : State) (b : Byte) : (s.setSt b).i = s.i := rfl
@[simp] theorem State.setSt_pc (s : State) (b : Byte) : (s.setSt b).pc = s.pc := rfl
@[simp] theorem State.setSt_sp (s : State) (b : Byte) : (s.setSt b).sp = s.sp := rfl
@[simp] theorem State.setSt_stk (s : State) (b : Byte) : (s.setSt b).stk = s.stk := rfl
@[simp] theorem State.setSt_dt (s : State) (b : Byte) : (s.setSt b).dt = s.dt := rfl
@[simp] theorem State.setSt_st (s : State) (b : Byte) : (s.setSt b).st = b := rfl
@[simp] theorem State.setSt_mem (s : State) (b : Byte) : (s.setSt b).mem = s.mem := rfl
@[simp] theorem State.setSt_fb (s : State) (b : Byte) : (s.setSt b).fb = s.fb := rfl
@[simp] theorem State.setSt_keys (s : State) (b : Byte) : (s.setSt b).keys = s.keys := rfl
@[simp] theorem State.setSt_wait (s : State) (b : Byte) : (s.setSt b).wait = s.wait := rfl
@[simp] theorem State.setSt_romImg (s : State) (b : Byte) : (s.setSt b).romImg = s.romImg := rfl
@[simp] theorem State.setSt_loaded (s : State) (b : Byte) : (s.setSt b).loaded = s.loaded := rfl
@[simp] theorem State.setSt_font (s : State) (b : Byte) : (s.setSt b).font = s.font := rfl
@[simp] theorem State.setSt_out (s : State) (b : Byte) : (s.setSt b).out = s.out := rfl
@[simp] theorem State.setSt_keyWrites (s : State) (b : Byte) : (s.setSt b).keyWrites = s.keyWrites := rfl
@[simp] theorem State.setSt_rndDraws (s : State) (b : Byte) : (s.setSt b).rndDraws = s.rndDraws := rfl
@[simp] theorem State.setSt_keyDraws (s : State) (b : Byte) : (s.setSt b).keyDraws = s.keyDraws := rfl
@[simp] theorem State.setSt_readV (s : State) (b : Byte) (q : Reg) : (s.setSt b).readV q = s.readV q := rfl
@[simp] theorem State.setSt_base (s : State) (b : Byte) : (s.setSt b).base = s.base := rfl

/-! ### State.setMem -/

@[simp] theorem State.setMem_v (s : State) (m : Memory) : (s.setMem m).v = s.v := rfl
@[simp] theorem State.setMem_i (s : State) (m : Memory) : (s.setMem m).i = s.i := rfl
@[simp] theorem State.setMem_pc (s : State) (m : Memory) : (s.setMem m).pc = s.pc := rfl
@[simp] theorem State.setMem_sp (s : State) (m : Memory) : (s.setMem m).sp = s.sp := rfl
@[simp] theorem State.setMem_stk (s : State) (m : Memory) : (s.setMem m).stk = s.stk := rfl
@[simp] theorem State.setMem_dt (s : State) (m : Memory) : (s.setMem m).dt = s.dt := rfl
@[simp] theorem State.setMem_st (s : State) (m : Memory) : (s.setMem m).st = s.st := rfl
@[simp] theorem State.setMem_mem (s : State) (m : Memory) : (s.setMem m).mem = m := rfl
@[simp] theorem State.setMem_fb (s : State) (m : Memory) : (s.setMem m).fb = s.fb := rfl
@[simp] theorem State.setMem_keys (s : State) (m : Memory) : (s.setMem m).keys = s.keys := rfl
@[simp] theorem State.setMem_wait (s : State) (m : Memory) : (s.setMem m).wait = s.wait := rfl
@[simp] theorem State.setMem_romImg (s : State) (m : Memory) : (s.setMem m).romImg = s.romImg := rfl
@[simp] theorem State.setMem_loaded (s : State) (m : Memory) : (s.setMem m).loaded = s.loaded := rfl
@[simp] theorem State.setMem_font (s : State) (m : Memory) : (s.setMem m).font = s.font := rfl
@[simp] theorem State.setMem_out (s : State) (m : Memory) : (s.setMem m).out = s.out := rfl
@[simp] theorem State.setMem_keyWrites (s : State) (m : Memory) : (s.setMem m).keyWrites = s.keyWrites := rfl
@[simp] theorem State.setMem_rndDraws (s : State) (m : Memory) : (s.setMem m).rndDraws = s.rndDraws := rfl
@[simp] theorem State.setMem_keyDraws (s : State) (m : Memory) : (s.setMem m).keyDraws = s.keyDraws := rfl
@[simp] theorem State.setMem_readV (s : State) (m : Memory) (q : Reg) : (s.setMem m).readV q = s.readV q := rfl
@[simp] theorem State.setMem_base (s : State) (m : Memory) : (s.setMem m).base = s.base := rfl

/-! ### State.setFb -/

@[simp] theorem State.setFb_v (s : State) (g : Framebuffer) : (s.setFb g).v = s.v := rfl
@[simp] theorem State.setFb_i (s : State) (g : Framebuffer) : (s.setFb g).i = s.i := rfl
@[simp] theorem State.setFb_pc (s : State) (g : Framebuffer) : (s.setFb g).pc = s.pc := rfl
@[simp] theorem State.setFb_sp (s : State) (g : Framebuffer) : (s.setFb g).sp = s.sp := rfl
@[simp] theorem State.setFb_stk (s : State) (g : Framebuffer) : (s.setFb g).stk = s.stk := rfl
@[simp] theorem State.setFb_dt (s : State) (g : Framebuffer) : (s.setFb g).dt = s.dt := rfl
@[simp] theorem State.setFb_st (s : State) (g : Framebuffer) : (s.setFb g).st = s.st := rfl
@[simp] theorem State.setFb_mem (s : State) (g : Framebuffer) : (s.setFb g).mem = s.mem := rfl
@[simp] theorem State.setFb_fb (s : State) (g : Framebuffer) : (s.setFb g).fb = g := rfl
@[simp] theorem State.setFb_keys (s : State) (g : Framebuffer) : (s.setFb g).keys = s.keys := rfl
@[simp] theorem State.setFb_wait (s : State) (g : Framebuffer) : (s.setFb g).wait = s.wait := rfl
@[simp] theorem State.setFb_romImg (s : State) (g : Framebuffer) : (s.setFb g).romImg = s.romImg := rfl
@[simp] theorem State.setFb_loaded (s : State) (g : Framebuffer) : (s.setFb g).loaded = s.loaded := rfl
@[simp] theorem State.setFb_font (s : State) (g : Framebuffer) : (s.setFb g).font = s.font := rfl
@[simp] theorem State.setFb_out (s : State) (g : Framebuffer) : (s.setFb g).out = s.out := rfl
@[simp] theorem State.setFb_keyWrites (s : State) (g : Framebuffer) : (s.setFb g).keyWrites = s.keyWrites := rfl
@[simp] theorem State.setFb_rndDraws (s : State) (g : Framebuffer) : (s.setFb g).rndDraws = s.rndDraws := rfl
@[simp] theorem State.setFb_keyDraws (s : State) (g : Framebuffer) : (s.setFb g).keyDraws = s.keyDraws := rfl
@[simp] theorem State.setFb_readV (s : State) (g : Framebuffer) (q : Reg) : (s.setFb g).readV q = s.readV q := rfl
@[simp] theorem State.setFb_base (s : State) (g : Framebuffer) : (s.setFb g).base = s.base := rfl

/-! ### State.setKeys -/

@[simp] theorem State.setKeys_v (s : State) (k : Keypad) : (s.setKeys k).v = s.v := rfl
@[simp] theorem State.setKeys_i (s : State) (k : Keypad) : (s.setKeys k).i = s.i := rfl
@[simp] theorem State.setKeys_pc (s : State) (k : Keypad) : (s.setKeys k).pc = s.pc := rfl
@[simp] theorem State.setKeys_sp (s : State) (k : Keypad) : (s.setKeys k).sp = s.sp := rfl
@[simp] theorem State.setKeys_stk (s : State) (k : Keypad) : (s.setKeys k).stk = s.stk := rfl
@[simp] theorem State.setKeys_dt (s : State) (k : Keypad) : (s.setKeys k).dt = s.dt := rfl
@[simp] theorem State.setKeys_st (s : State) (k : Keypad) : (s.setKeys k).st = s.st := rfl
@[simp] theorem State.setKeys_mem (s : State) (k : Keypad) : (s.setKeys k).mem = s.mem := rfl
@[simp] theorem State.setKeys_fb (s : State) (k : Keypad) : (s.setKeys k).fb = s.fb := rfl
@[simp] theorem State.setKeys_keys (s : State) (k : Keypad) : (s.setKeys k).keys = k := rfl
@[simp] theorem State.setKeys_wait (s : State) (k : Keypad) : (s.setKeys k).wait = s.wait := rfl
@[simp] theorem State.setKeys_romImg (s : State) (k : Keypad) : (s.setKeys k).romImg = s.romImg := rfl
@[simp] theorem State.setKeys_loaded (s : State) (k : Keypad) : (s.setKeys k).loaded = s.loaded := rfl
@[simp] theorem State.setKeys_font (s : State) (k : Keypad) : (s.setKeys k).font = s.font := rfl
@[simp] theorem State.setKeys_out (s : State) (k : Keypad) : (s.setKeys k).out = s.out := rfl
@[simp] theorem State.setKeys_keyWrites (s : State) (k : Keypad) : (s.setKeys k).keyWrites = s.keyWrites := rfl
@[simp] theorem State.setKeys_rndDraws (s : State) (k : Keypad) : (s.setKeys k).rndDraws = s.rndDraws := rfl
@[simp] theorem State.setKeys_keyDraws (s : State) (k : Keypad) : (s.setKeys k).keyDraws = s.keyDraws := rfl
@[simp] theorem State.setKeys_readV (s : State) (k : Keypad) (q : Reg) : (s.setKeys k).readV q = s.readV q := rfl
@[simp] theorem State.setKeys_base (s : State) (k : Keypad) : (s.setKeys k).base = s.base := rfl

/-! ### State.setWait -/

@[simp] theorem State.setWait_v (s : State) (b : Bool) : (s.setWait b).v = s.v := rfl
@[simp] theorem State.setWait_i (s : State) (b : Bool) : (s.setWait b).i = s.i := rfl
@[simp] theorem State.setWait_pc (s : State) (b : Bool) : (s.setWait b).pc = s.pc := rfl
@[simp] theorem State.setWait_sp (s : State) (b : Bool) : (s.setWait b).sp = s.sp := rfl
@[simp] theorem State.setWait_stk (s : State) (b : Bool) : (s.setWait b).stk = s.stk := rfl
@[simp] theorem State.setWait_dt (s : State) (b : Bool) : (s.setWait b).dt = s.dt := rfl
@[simp] theorem State.setWait_st (s : State) (b : Bool) : (s.setWait b).st = s.st := rfl
@[simp] theorem State.setWait_mem (s : State) (b : Bool) : (s.setWait b).mem = s.mem := rfl
@[simp] theorem State.setWait_fb (s : State) (b : Bool) : (s.setWait b).fb = s.fb := rfl
@[simp] theorem State.setWait_keys (s : State) (b : Bool) : (s.setWait b).keys = s.keys := rfl
@[simp] theorem State.setWait_wait (s : State) (b : Bool) : (s.setWait b).wait = b := rfl
@[simp] theorem State.setWait_romImg (s : State) (b : Bool) : (s.setWait b).romImg = s.romImg := rfl
@[simp] theorem State.setWait_loaded (s : State) (b : Bool) : (s.setWait b).loaded = s.loaded := rfl
@[simp] theorem State.setWait_font (s : State) (b : Bool) : (s.setWait b).font = s.font := rfl
@[simp] theorem State.setWait_out (s : State) (b : Bool) : (s.setWait b).out = s.out := rfl
@[simp] theorem State.setWait_keyWrites (s : State) (b : Bool) : (s.setWait b).keyWrites = s.keyWrites := rfl
@[simp] theorem State.setWait_rndDraws (s : State) (b : Bool) : (s.setWait b).rndDraws = s.rndDraws := rfl
@[simp] theorem State.setWait_keyDraws (s : State) (b : Bool) : (s.setWait b).keyDraws = s.keyDraws := rfl
@[simp] theorem State.setWait_readV (s : State) (b : Bool) (q : Reg) : (s.setWait b).readV q = s.readV q := rfl
@[simp] theorem State.setWait_base (s : State) (b : Bool) : (s.setWait b).base = s.base := rfl

/-! ### State.setOut -/

@[simp] theorem State.setOut_v (s : State) (o : StepOutcome) : (s.setOut o).v = s.v := rfl
@[simp] theorem State.setOut_i (s : State) (o : StepOutcome) : (s.setOut o).i = s.i := rfl
@[simp] theorem State.setOut_pc (s : State) (o : StepOutcome) : (s.setOut o).pc = s.pc := rfl
@[simp] theorem State.setOut_sp (s : State) (o : StepOutcome) : (s.setOut o).sp = s.sp := rfl
@[simp] theorem State.setOut_stk (s : State) (o : StepOutcome) : (s.setOut o).stk = s.stk := rfl
@[simp] theorem State.setOut_dt (s : State) (o : StepOutcome) : (s.setOut o).dt = s.dt := rfl
@[simp] theorem State.setOut_st (s : State) (o : StepOutcome) : (s.setOut o).st = s.st := rfl
@[simp] theorem State.setOut_mem (s : State) (o : StepOutcome) : (s.setOut o).mem = s.mem := rfl
@[simp] theorem State.setOut_fb (s : State) (o : StepOutcome) : (s.setOut o).fb = s.fb := rfl
@[simp] theorem State.setOut_keys (s : State) (o : StepOutcome) : (s.setOut o).keys = s.keys := rfl
@[simp] theorem State.setOut_wait (s : State) (o : StepOutcome) : (s.setOut o).wait = s.wait := rfl
@[simp] theorem State.setOut_romImg (s : State) (o : StepOutcome) : (s.setOut o).romImg = s.romImg := rfl
@[simp] theorem State.setOut_loaded (s : State) (o : StepOutcome) : (s.setOut o).loaded = s.loaded := rfl
@[simp] theorem State.setOut_font (s : State) (o : StepOutcome) : (s.setOut o).font = s.font := rfl
@[simp] theorem State.setOut_out (s : State) (o : StepOutcome) : (s.setOut o).out = o := rfl
@[simp] theorem State.setOut_keyWrites (s : State) (o : StepOutcome) : (s.setOut o).keyWrites = s.keyWrites := rfl
@[simp] theorem State.setOut_rndDraws (s : State) (o : StepOutcome) : (s.setOut o).rndDraws = s.rndDraws := rfl
@[simp] theorem State.setOut_keyDraws (s : State) (o : StepOutcome) : (s.setOut o).keyDraws = s.keyDraws := rfl
@[simp] theorem State.setOut_readV (s : State) (o : StepOutcome) (q : Reg) : (s.setOut o).readV q = s.readV q := rfl
@[simp] theorem State.setOut_base (s : State) (o : StepOutcome) : (s.setOut o).base = s.base := rfl

/-! ### State.setKeyWrites -/

@[simp] theorem State.setKeyWrites_v (s : State) (l : List Keypad) : (s.setKeyWrites l).v = s.v := rfl
@[simp] theorem State.setKeyWrites_i (s : State) (l : List Keypad) : (s.setKeyWrites l).i = s.i := rfl
@[simp] theorem State.setKeyWrites_pc (s : State) (l : List Keypad) : (s.setKeyWrites l).pc = s.pc := rfl
@[simp] theorem State.setKeyWrites_sp (s : State) (l : List Keypad) : (s.setKeyWrites l).sp = s.sp := rfl
@[simp] theorem State.setKeyWrites_stk (s : State) (l : List Keypad) : (s.setKeyWrites l).stk = s.stk := rfl
@[simp] theorem State.setKeyWrites_dt (s : State) (l : List Keypad) : (s.setKeyWrites l).dt = s.dt := rfl
@[simp] theorem State.setKeyWrites_st (s : State) (l : List Keypad) : (s.setKeyWrites l).st = s.st := rfl
@[simp] theorem State.setKeyWrites_mem (s : State) (l : List Keypad) : (s.setKeyWrites l).mem = s.mem := rfl
@[simp] theorem State.setKeyWrites_fb (s : State) (l : List Keypad) : (s.setKeyWrites l).fb = s.fb := rfl
@[simp] theorem State.setKeyWrites_keys (s : State) (l : List Keypad) : (s.setKeyWrites l).keys = s.keys := rfl
@[simp] theorem State.setKeyWrites_wait (s : State) (l : List Keypad) : (s.setKeyWrites l).wait = s.wait := rfl
@[simp] theorem State.setKeyWrites_romImg (s : State) (l : List Keypad) : (s.setKeyWrites l).romImg = s.romImg := rfl
@[simp] theorem State.setKeyWrites_loaded (s : State) (l : List Keypad) : (s.setKeyWrites l).loaded = s.loaded := rfl
@[simp] theorem State.setKeyWrites_font (s : State) (l : List Keypad) : (s.setKeyWrites l).font = s.font := rfl
@[simp] theorem State.setKeyWrites_out (s : State) (l : List Keypad) : (s.setKeyWrites l).out = s.out := rfl
@[simp] theorem State.setKeyWrites_keyWrites (s : State) (l : List Keypad) : (s.setKeyWrites l).keyWrites = l := rfl
@[simp] theorem State.setKeyWrites_rndDraws (s : State) (l : List Keypad) : (s.setKeyWrites l).rndDraws = s.rndDraws := rfl
@[simp] theorem State.setKeyWrites_keyDraws (s : State) (l : List Keypad) : (s.setKeyWrites l).keyDraws = s.keyDraws := rfl
@[simp] theorem State.setKeyWrites_readV (s : State) (l : List Keypad) (q : Reg) : (s.setKeyWrites l).readV q = s.readV q := rfl
@[simp] theorem State.setKeyWrites_base (s : State) (l : List Keypad) : (s.setKeyWrites l).base = s.base := rfl

/-! ### State.countRnd -/

@[simp] theorem State.countRnd_v (s : State) : s.countRnd.v = s.v := rfl
@[simp] theorem State.countRnd_i (s : State) : s.countRnd.i = s.i := rfl
@[simp] theorem State.countRnd_pc (s : State) : s.countRnd.pc = s.pc := rfl
@[simp] theorem State.countRnd_sp (s : State) : s.countRnd.sp = s.sp := rfl
@[simp] theorem State.countRnd_stk (s : State) : s.countRnd.stk = s.stk := rfl
@[simp] theorem State.countRnd_dt (s : State) : s.countRnd.dt = s.dt := rfl
@[simp] theorem State.countRnd_st (s : State) : s.countRnd.st = s.st := rfl
@[simp] theorem State.countRnd_mem (s : State) : s.countRnd.mem = s.mem := rfl
@[simp] theorem State.countRnd_fb (s : State) : s.countRnd.fb = s.fb := rfl
@[simp] theorem State.countRnd_keys (s : State) : s.countRnd.keys = s.keys := rfl
@[simp] theorem State.countRnd_wait (s : State) : s.countRnd.wait = s.wait := rfl
@[simp] theorem State.countRnd_romImg (s : State) : s.countRnd.romImg = s.romImg := rfl
@[simp] theorem State.countRnd_loaded (s : State) : s.countRnd.loaded = s.loaded := rfl
@[simp] theorem State.countRnd_font (s : State) : s.countRnd.font = s.font := rfl
@[simp] theorem State.countRnd_out (s : State) : s.countRnd.out = s.out := rfl
@[simp] theorem State.countRnd_keyWrites (s : State) : s.countRnd.keyWrites = s.keyWrites := rfl
@[simp] theorem State.countRnd_rndDraws (s : State) : s.countRnd.rndDraws = s.rndDraws + 1 := rfl
@[simp] theorem State.countRnd_keyDraws (s : State) : s.countRnd.keyDraws = s.keyDraws := rfl
@[simp] theorem State.countRnd_readV (s : State) (q : Reg) : s.countRnd.readV q = s.readV q := rfl
@[simp] theorem State.countRnd_base (s : State) : s.countRnd.base = s.base := rfl

/-! ### State.countKey -/

@[simp] theorem State.countKey_v (s : State) : s.countKey.v = s.v := rfl
@[simp] theorem State.countKey_i (s : State) : s.countKey.i = s.i := rfl
@[simp] theorem State.countKey_pc (s : State) : s.countKey.pc = s.pc := rfl
@[simp] theorem State.countKey_sp (s : State) : s.countKey.sp = s.sp := rfl
@[simp] theorem State.countKey_stk (s : State) : s.countKey.stk = s.stk := rfl
@[simp] theorem State.countKey_dt (s : State) : s.countKey.dt = s.dt := rfl
@[simp] theorem State.countKey_st (s : State) : s.countKey.st = s.st := rfl
@[simp] theorem State.countKey_mem (s : State) : s.countKey.mem = s.mem := rfl
@[simp] theorem State.countKey_fb (s : State) : s.countKey.fb = s.fb := rfl
@[simp] theorem State.countKey_keys (s : State) : s.countKey.keys = s.keys := rfl
@[simp] theorem State.countKey_wait (s : State) : s.countKey.wait = s.wait := rfl
@[simp] theorem State.countKey_romImg (s : State) : s.countKey.romImg = s.romImg := rfl
@[simp] theorem State.countKey_loaded (s : State) : s.countKey.loaded = s.loaded := rfl
@[simp] theorem State.countKey_font (s : State) : s.countKey.font = s.font := rfl
@[simp] theorem State.countKey_out (s : State) : s.countKey.out = s.out := rfl
@[simp] theorem State.countKey_keyWrites (s : State) : s.countKey.keyWrites = s.keyWrites := rfl
@[simp] theorem State.countKey_rndDraws (s : State) : s.countKey.rndDraws = s.rndDraws := rfl
@[simp] theorem State.countKey_keyDraws (s : State) : s.countKey.keyDraws = s.keyDraws + 1 := rfl
@[simp] theorem State.countKey_readV (s : State) (q : Reg) : s.countKey.readV q = s.readV q := rfl
@[simp] theorem State.countKey_base (s : State) : s.countKey.base = s.base := rfl

/-! ### State.advance -/

@[simp] theorem State.advance_v (s : State) : s.advance.v = s.v := rfl
@[simp] theorem State.advance_i (s : State) : s.advance.i = s.i := rfl
@[simp] theorem State.advance_pc (s : State) : s.advance.pc = s.pc + 2 := rfl
@[simp] theorem State.advance_sp (s : State) : s.advance.sp = s.sp := rfl
@[simp] theorem State.advance_stk (s : State) : s.advance.stk = s.stk := rfl
@[simp] theorem State.advance_dt (s : State) : s.advance.dt = s.dt := rfl
@[simp] theorem State.advance_st (s : State) : s.advance.st = s.st := rfl
@[simp] theorem State.advance_mem (s : State) : s.advance.mem = s.mem := rfl
@[simp] theorem State.advance_fb (s : State) : s.advance.fb = s.fb := rfl
@[simp] theorem State.advance_keys (s : State) : s.advance.keys = s.keys := rfl
@[simp] theorem State.advance_wait (s : State) : s.advance.wait = s.wait := rfl
@[simp] theorem State.advance_romImg (s : State) : s.advance.romImg = s.romImg := rfl
@[simp] theorem State.advance_loaded (s : State) : s.advance.loaded = s.loaded := rfl
@[simp] theorem State.advance_font (s : State) : s.advance.font = s.font := rfl
@[simp] theorem State.advance_out (s : State) : s.advance.out = s.out := rfl
@[simp] theorem State.advance_keyWrites (s : State) : s.advance.keyWrites = s.keyWrites := rfl
@[simp] theorem State.advance_rndDraws (s : State) : s.advance.rndDraws = s.rndDraws := rfl
@[simp] theorem State.advance_keyDraws (s : State) : s.advance.keyDraws = s.keyDraws := rfl
@[simp] theorem State.advance_readV (s : State) (q : Reg) : s.advance.readV q = s.readV q := rfl
@[simp] theorem State.advance_base (s : State) : s.advance.base = s.base := rfl

/-! ### State.skipIf -/

@[simp] theorem State.skipIf_v (s : State) (c : Bool) : (s.skipIf c).v = s.v := rfl
@[simp] theorem State.skipIf_i (s : State) (c : Bool) : (s.skipIf c).i = s.i := rfl
@[simp] theorem State.skipIf_pc (s : State) (c : Bool) : (s.skipIf c).pc = if c then s.pc + 4 else s.pc + 2 := rfl
@[simp] theorem State.skipIf_sp (s : State) (c : Bool) : (s.skipIf c).sp = s.sp := rfl
@[simp] theorem State.skipIf_stk (s : State) (c : Bool) : (s.skipIf c).stk = s.stk := rfl
@[simp] theorem State.skipIf_dt (s : State) (c : Bool) : (s.skipIf c).dt = s.dt := rfl
@[simp] theorem State.skipIf_st (s : State) (c : Bool) : (s.skipIf c).st = s.st := rfl
@[simp] theorem State.skipIf_mem (s : State) (c : Bool) : (s.skipIf c).mem = s.mem := rfl
@[simp] theorem State.skipIf_fb (s : State) (c : Bool) : (s.skipIf c).fb = s.fb := rfl
@[simp] theorem State.skipIf_keys (s : State) (c : Bool) : (s.skipIf c).keys = s.keys := rfl
@[simp] theorem State.skipIf_wait (s : State) (c : Bool) : (s.skipIf c).wait = s.wait := rfl
@[simp] theorem State.skipIf_romImg (s : State) (c : Bool) : (s.skipIf c).romImg = s.romImg := rfl
@[simp] theorem State.skipIf_loaded (s : State) (c : Bool) : (s.skipIf c).loaded = s.loaded := rfl
@[simp] theorem State.skipIf_font (s : State) (c : Bool) : (s.skipIf c).font = s.font := rfl
@[simp] theorem State.skipIf_out (s : State) (c : Bool) : (s.skipIf c).out = s.out := rfl
@[simp] theorem State.skipIf_keyWrites (s : State) (c : Bool) : (s.skipIf c).keyWrites = s.keyWrites := rfl
@[simp] theorem State.skipIf_rndDraws (s : State) (c : Bool) : (s.skipIf c).rndDraws = s.rndDraws := rfl
@[simp] theorem State.skipIf_keyDraws (s : State) (c : Bool) : (s.skipIf c).keyDraws = s.keyDraws := rfl
@[simp] theorem State.skipIf_readV (s : State) (c : Bool) (q : Reg) : (s.skipIf c).readV q = s.readV q := rfl
@[simp] theorem State.skipIf_base (s : State) (c : Bool) : (s.skipIf c).base = s.base := rfl

/-! ### State.markDirty -/

@[simp] theorem State.markDirty_v (s : State) : s.markDirty.v = s.v := rfl
@[simp] theorem State.markDirty_i (s : State) : s.markDirty.i = s.i := rfl
@[simp] theorem State.markDirty_pc (s : State) : s.markDirty.pc = s.pc := rfl
@[simp] theorem State.markDirty_sp (s : State) : s.markDirty.sp = s.sp := rfl
@[simp] theorem State.markDirty_stk (s : State) : s.markDirty.stk = s.stk := rfl
@[simp] theorem State.markDirty_dt (s : State) : s.markDirty.dt = s.dt := rfl
@[simp] theorem State.markDirty_st (s : State) : s.markDirty.st = s.st := rfl
@[simp] theorem State.markDirty_mem (s : State) : s.markDirty.mem = s.mem := rfl
@[simp] theorem State.markDirty_fb (s : State) : s.markDirty.fb = s.fb := rfl
@[simp] theorem State.markDirty_keys (s : State) : s.markDirty.keys = s.keys := rfl
@[simp] theorem State.markDirty_wait (s : State) : s.markDirty.wait = s.wait := rfl
@[simp] theorem State.markDirty_romImg (s : State) : s.markDirty.romImg = s.romImg := rfl
@[simp] theorem State.markDirty_loaded (s : State) : s.markDirty.loaded = s.loaded := rfl
@[simp] theorem State.markDirty_font (s : State) : s.markDirty.font = s.font := rfl
@[simp] theorem State.markDirty_out (s : State) : s.markDirty.out = ⟨true, s.out.soundOn, s.out.unknown⟩ := rfl
@[simp] theorem State.markDirty_keyWrites (s : State) : s.markDirty.keyWrites = s.keyWrites := rfl
@[simp] theorem State.markDirty_rndDraws (s : State) : s.markDirty.rndDraws = s.rndDraws := rfl
@[simp] theorem State.markDirty_keyDraws (s : State) : s.markDirty.keyDraws = s.keyDraws := rfl
@[simp] theorem State.markDirty_readV (s : State) (q : Reg) : s.markDirty.readV q = s.readV q := rfl
@[simp] theorem State.markDirty_base (s : State) : s.markDirty.base = s.base := rfl

/-! ### State.markUnknown -/

@[simp] theorem State.markUnknown_v (s : State) : s.markUnknown.v = s.v := rfl
@[simp] theorem State.markUnknown_i (s : State) : s.markUnknown.i = s.i := rfl
@[simp] theorem State.markUnknown_pc (s : State) : s.markUnknown.pc = s.pc := rfl
@[simp] theorem State.markUnknown_sp (s : State) : s.markUnknown.sp = s.sp := rfl
@[simp] theorem State.markUnknown_stk (s : State) : s.markUnknown.stk = s.stk := rfl
@[simp] theorem State.markUnknown_dt (s : State) : s.markUnknown.dt = s.dt := rfl
@[simp] theorem State.markUnknown_st (s : State) : s.markUnknown.st = s.st := rfl
@[simp] theorem State.markUnknown_mem (s : State) : s.markUnknown.mem = s.mem := rfl
@[simp] theorem State.markUnknown_fb (s : State) : s.markUnknown.fb = s.fb := rfl
@[simp] theorem State.markUnknown_keys (s : State) : s.markUnknown.keys = s.keys := rfl
@[simp] theorem State.markUnknown_wait (s : State) : s.markUnknown.wait = s.wait := rfl
@[simp] theorem State.markUnknown_romImg (s : State) : s.markUnknown.romImg = s.romImg := rfl
@[simp] theorem State.markUnknown_loaded (s : State) : s.markUnknown.loaded = s.loaded := rfl
@[simp] theorem State.markUnknown_font (s : State) : s.markUnknown.font = s.font := rfl
@[simp] theorem State.markUnknown_out (s : State) : s.markUnknown.out = ⟨s.out.fbDirty, s.out.soundOn, true⟩ := rfl
@[simp] theorem State.markUnknown_keyWrites (s : State) : s.markUnknown.keyWrites = s.keyWrites := rfl
@[simp] theorem State.markUnknown_rndDraws (s : State) : s.markUnknown.rndDraws = s.rndDraws := rfl
@[simp] theorem State.markUnknown_keyDraws (s : State) : s.markUnknown.keyDraws = s.keyDraws := rfl
@[simp] theorem State.markUnknown_readV (s : State) (q : Reg) : s.markUnknown.readV q = s.readV q := rfl
@[simp] theorem State.markUnknown_base (s : State) : s.markUnknown.base = s.base := rfl

/-! ### Registers -/

/-- A write is seen by every read of the same register and by no other (10_state.md R12). -/
@[simp] theorem State.readV_writeV (s : State) (r q : Reg) (b : Byte) :
    (s.writeV r b).readV q = if q = r then b else s.readV q := by
  simp only [State.readV, State.writeV_v, Fin.getElem_fin, Vector.getElem_set, Fin.ext_iff, eq_comm]

@[simp] theorem State.readV_setRegs (s : State) (w : Vector Byte 16) (q : Reg) : (s.setRegs w).readV q = w[q] := rfl

/-- Two register files with the same sixteen reads are the same. -/
theorem regs_ext {s t : State} (h : ∀ q, t.readV q = s.readV q) : t.v = s.v :=
  Vector.ext fun k hk => h ⟨k, hk⟩

end Sys2Proof.Machine
end

