-- ==== Sys2Proof/Laws/Ops.lean ====
section
/-! SUPPORT. One lemma for each shared operation that says everything it can do. -/

namespace Sys2Proof.Machine

/-! ### Flags and arithmetic -/

theorem toNat_flagByte (b : Bool) : (flagByte b).toNat = if b then 1 else 0 := by cases b <;> rfl

theorem toNat_addByte (a b : Byte) : (addByte a b).toNat = (a.toNat + b.toNat) % 256 := by simp [addByte]

theorem toInt_subByte (a b : Byte) : ((subByte a b).toNat : Int) = ((a.toNat : Int) - b.toNat) % 256 := by
  simp only [subByte, BitVec.toNat_ofInt]
  omega

theorem toNat_carryFlag (a b : Byte) : (carryFlag a b).toNat = if a.toNat + b.toNat > 255 then 1 else 0 := by
  simp [carryFlag, toNat_flagByte]

theorem toNat_noBorrowFlag (a b : Byte) : (noBorrowFlag a b).toNat = if b.toNat ≤ a.toNat then 1 else 0 := by
  simp only [noBorrowFlag, toNat_flagByte, Bool.not_eq_true', decide_eq_false_iff_not]
  congr 1
  apply propext
  omega

theorem toNat_shiftRightByte (a : Byte) : (shiftRightByte a).toNat = a.toNat / 2 := by
  simp only [shiftRightByte, BitVec.toNat_ofNat]
  omega

theorem toNat_shiftLeftByte (a : Byte) : (shiftLeftByte a).toNat = a.toNat * 2 % 256 := by
  simp only [shiftLeftByte, BitVec.toNat_ofNat]
  omega

theorem toNat_shiftedOutRight (a : Byte) : (shiftedOutRight a).toNat = a.toNat % 2 := by
  simp only [shiftedOutRight, toNat_flagByte, BitVec.getLsbD, Nat.testBit_zero]
  by_cases h : a.toNat % 2 = 1 <;> simp [h]
  omega

theorem toNat_shiftedOutLeft (a : Byte) : (shiftedOutLeft a).toNat = a.toNat / 128 := by
  have ha := a.isLt
  simp only [shiftedOutLeft, toNat_flagByte, BitVec.getLsbD, Nat.testBit_eq_decide_div_mod_eq]
  have h : a.toNat / 2 ^ 7 % 2 = 1 ↔ a.toNat / 128 = 1 := by omega
  simp only [decide_eq_true_eq, h]
  split <;> omega

theorem toNat_tickTimer (b : Byte) : (tickTimer b).toNat = b.toNat - 1 := by
  have := b.isLt
  unfold tickTimer
  split
  · simp only [BitVec.toNat_ofNat]; omega
  · omega

/-! ### Ranges -/

theorem rangeFault_eq_none (base n : Nat) : rangeFault base n = none ↔ n = 0 ∨ base + n ≤ 4096 := by
  unfold rangeFault
  split <;> simp_all

theorem rangeFault_eq_some (base n a : Nat) :
    rangeFault base n = some a ↔ (n > 0 ∧ base + n > 4096) ∧ a = max base 4096 := by
  unfold rangeFault
  split
  · next h => simp; simp at h; omega
  · next h => simp [eq_comm] at h ⊢; omega

/-- `withRange` either raises the AddressFault of the range or is its body. -/
theorem withRange_cases (base n : Nat) (body : Result) :
    (n > 0 ∧ base + n > 4096 ∧ withRange base n body = .fault (.addressFault (max base 4096))) ∨
    ((n = 0 ∨ base + n ≤ 4096) ∧ withRange base n body = body) := by
  unfold withRange
  cases h : rangeFault base n with
  | none => exact .inr ⟨(rangeFault_eq_none _ _).mp h, rfl⟩
  | some a =>
    obtain ⟨⟨hn, hb⟩, rfl⟩ := (rangeFault_eq_some _ _ _).mp h
    exact .inl ⟨hn, hb, rfl⟩

theorem withRange_of_ok (base n : Nat) (body : Result) (h : n = 0 ∨ base + n ≤ 4096) : withRange base n body = body := by
  rw [withRange, (rangeFault_eq_none _ _).mpr h]

theorem withRange_of_bad (base n : Nat) (body : Result) (hn : n > 0) (h : base + n > 4096) :
    withRange base n body = .fault (.addressFault (max base 4096)) := by
  rw [withRange, (rangeFault_eq_some _ _ _).mpr ⟨⟨hn, h⟩, rfl⟩]
  rfl

/-! ### The stack -/

/-- A push fails when SP = 16, and otherwise stores the address at SP and counts it. -/
theorem push_cases (s : State) (a : Word) :
    (s.sp.val = 16 ∧ s.push a = none) ∨
    ∃ h : s.sp.val < 16, s.push a = some ((s.writeStk ⟨s.sp.val, h⟩ a).setSp ⟨s.sp.val + 1, by omega⟩) := by
  unfold State.push
  by_cases h : s.sp.val < 16
  · exact .inr ⟨h, dif_pos h⟩
  · exact .inl ⟨by omega, dif_neg h⟩

/-- A pop fails when SP = 0, and otherwise gives the last entry and uncounts it. -/
theorem pop_cases (s : State) :
    (s.sp.val = 0 ∧ s.pop = none) ∨
    ∃ h : 0 < s.sp.val, s.pop = some (s.stk[s.sp.val - 1], s.setSp ⟨s.sp.val - 1, by omega⟩) := by
  unfold State.pop
  by_cases h : 0 < s.sp.val
  · exact .inr ⟨h, dif_pos h⟩
  · exact .inl ⟨by omega, dif_neg h⟩

/-! ### Keys -/

theorem keyState_eq_none (keys : Keypad) (b : Byte) : keyState keys b = none ↔ b.toNat > 15 := by
  unfold keyState
  split <;> simp <;> omega

theorem keyState_eq_some (keys : Keypad) (b : Byte) (p : Bool) :
    keyState keys b = some p ↔ ∃ k : Fin 16, k.val = b.toNat ∧ keys[k] = p := by
  unfold keyState
  split
  · next h =>
    constructor
    · intro hp
      exact ⟨⟨b.toNat, h⟩, rfl, by simpa using hp⟩
    · rintro ⟨k, hk, rfl⟩
      simp [← hk]
  · next h =>
    simp
    intro k hk
    omega

theorem mem_pressedKeys (keys : Keypad) (k : Fin 16) : k ∈ pressedKeys keys ↔ keys[k] = true := by
  simp [pressedKeys]

theorem pressedKeys_eq_nil (keys : Keypad) : pressedKeys keys = [] ↔ ∀ k : Fin 16, keys[k] = false := by
  simp [pressedKeys, List.filter_eq_nil_iff]

/-- No key is chosen exactly when none is pressed. -/
theorem chooseKey_eq_none (p : List (Fin 16)) (d : Nat) : chooseKey p d = none ↔ p = [] := by
  unfold chooseKey
  cases p with
  | nil => simp
  | cons k p =>
    have := Nat.mod_lt d (show 0 < (k :: p).length by simp)
    simp only [List.getElem?_eq_none_iff, reduceCtorEq, iff_false]
    omega

/-- A chosen key is one of those pressed. -/
theorem chooseKey_mem (p : List (Fin 16)) (d : Nat) (k : Fin 16) (h : chooseKey p d = some k) : k ∈ p :=
  List.mem_of_getElem? h

/-- Every pressed key is the choice of some draw, so the choice is open among them. -/
theorem chooseKey_surjective (p : List (Fin 16)) (k : Fin 16) (h : k ∈ p) : ∃ d, chooseKey p d = some k := by
  obtain ⟨j, hj, rfl⟩ := List.getElem_of_mem h
  exact ⟨j, by rw [chooseKey, Nat.mod_eq_of_lt hj, List.getElem?_eq_getElem hj]⟩

/-! ### Register ranges -/

@[simp] theorem length_regsUpTo (s : State) (x : Reg) : (s.regsUpTo x).length = x.val + 1 := by
  simp [State.regsUpTo]

theorem getElem_regsUpTo (s : State) (x : Reg) (k : Nat) (h : k < (s.regsUpTo x).length) (hk : k < 16) :
    (s.regsUpTo x)[k] = s.readV ⟨k, hk⟩ := by
  simp [State.regsUpTo, State.readV]

theorem getElem_loadRegs (s : State) (x q : Reg) (base : Nat) :
    (s.loadRegs x base)[q] = if q ≤ x then s.mem.read (base + q.val) else s.readV q := by
  simp [State.loadRegs, State.readV]

@[simp] theorem length_decimalDigits (b : Byte) : (decimalDigits b).length = 3 := rfl

theorem toNat_glyphAddress (b : Byte) : (glyphAddress b).toNat = 5 * b.toNat := by
  have := b.isLt
  simp only [glyphAddress, Config.fontBase, Config.glyphBytes, BitVec.toNat_ofNat]
  omega

/-! ### The parts of a step -/

/-- The keypad snapshot of the next step: the host's next write, or the vector written last. -/
def State.nextKeys (s : State) : Keypad := s.keyWrites.headD s.keys

/-- The start of a step changes the keypad register, the pending keypad writes and the outcome flags, and nothing else. -/
theorem beginStep_eq (s : State) :
    s.beginStep = { s with keys := s.nextKeys, keyWrites := s.keyWrites.tail, out := ⟨false, false, false⟩ } := by
  cases s with
  | mk _ _ _ _ _ _ _ _ _ _ _ _ _ _ _ keyWrites _ _ => cases keyWrites <;> rfl

@[simp] theorem beginStep_v (s : State) : s.beginStep.v = s.v := by rw [beginStep_eq]
@[simp] theorem beginStep_i (s : State) : s.beginStep.i = s.i := by rw [beginStep_eq]
@[simp] theorem beginStep_pc (s : State) : s.beginStep.pc = s.pc := by rw [beginStep_eq]
@[simp] theorem beginStep_sp (s : State) : s.beginStep.sp = s.sp := by rw [beginStep_eq]
@[simp] theorem beginStep_stk (s : State) : s.beginStep.stk = s.stk := by rw [beginStep_eq]
@[simp] theorem beginStep_dt (s : State) : s.beginStep.dt = s.dt := by rw [beginStep_eq]
@[simp] theorem beginStep_st (s : State) : s.beginStep.st = s.st := by rw [beginStep_eq]
@[simp] theorem beginStep_mem (s : State) : s.beginStep.mem = s.mem := by rw [beginStep_eq]
@[simp] theorem beginStep_fb (s : State) : s.beginStep.fb = s.fb := by rw [beginStep_eq]
@[simp] theorem beginStep_keys (s : State) : s.beginStep.keys = s.nextKeys := by rw [beginStep_eq]
@[simp] theorem beginStep_wait (s : State) : s.beginStep.wait = s.wait := by rw [beginStep_eq]
@[simp] theorem beginStep_romImg (s : State) : s.beginStep.romImg = s.romImg := by rw [beginStep_eq]
@[simp] theorem beginStep_loaded (s : State) : s.beginStep.loaded = s.loaded := by rw [beginStep_eq]
@[simp] theorem beginStep_font (s : State) : s.beginStep.font = s.font := by rw [beginStep_eq]
@[simp] theorem beginStep_out (s : State) : s.beginStep.out = ⟨false, false, false⟩ := by rw [beginStep_eq]
@[simp] theorem beginStep_keyWrites (s : State) : s.beginStep.keyWrites = s.keyWrites.tail := by rw [beginStep_eq]
@[simp] theorem beginStep_rndDraws (s : State) : s.beginStep.rndDraws = s.rndDraws := by rw [beginStep_eq]
@[simp] theorem beginStep_keyDraws (s : State) : s.beginStep.keyDraws = s.keyDraws := by rw [beginStep_eq]
@[simp] theorem beginStep_readV (s : State) (q : Reg) : s.beginStep.readV q = s.readV q := by rw [beginStep_eq]; rfl

/-- The end of a step ticks both timers and sets `sound_on`, and changes nothing else. -/
theorem endStep_eq (s : State) :
    s.endStep = { s with
      dt := tickTimer s.dt, st := tickTimer s.st,
      out := { s.out with soundOn := decide ((tickTimer s.st).toNat > 0) } } := rfl

/-- The fetch succeeds exactly when PC ≤ 4094, with the big-endian word at PC. -/
theorem fetch_of_le (s : State) (h : s.pc.toNat ≤ 4094) :
    s.fetch = .ok (wordOfBytes (s.mem.read s.pc.toNat) (s.mem.read (s.pc.toNat + 1))) := by
  rw [State.fetch, if_neg (by omega)]

theorem fetch_of_gt (s : State) (h : s.pc.toNat > 4094) : s.fetch = .error (max s.pc.toNat 4096) := by
  rw [State.fetch, if_pos h]
  congr 1
  split <;> omega

/-- A finished step answers a next state exactly when the execute phase did, and then it is that state after the tick. -/
theorem finishStep_eq_next (r : Result) (t : State) : finishStep r = .next t ↔ ∃ u, r = .next u ∧ t = u.endStep := by
  cases r with
  | next u => simp [finishStep, eq_comm]
  | fault f => simp [finishStep]
  | refused q => simp [finishStep]

theorem finishStep_eq_fault (r : Result) (f : Fault) : finishStep r = .fault f ↔ r = .fault f := by
  cases r <;> simp [finishStep]

theorem finishStep_eq_refused (r : Result) (q : Refusal) : finishStep r = .refused q ↔ r = .refused q := by
  cases r <;> simp [finishStep]

/-- Everything a step that answers a next state did: it was loaded, it fetched at PC, it executed the decoded instruction after
the keypad write, and it ended with the tick. -/
theorem step_next (s t : State) (h : step s = .next t) :
    s.loaded = true ∧ s.pc.toNat ≤ 4094 ∧ ∃ u,
      exec (decodeWord (wordOfBytes (s.mem.read s.pc.toNat) (s.mem.read (s.pc.toNat + 1)))) s.beginStep = .next u ∧
      t = u.endStep := by
  unfold step at h
  by_cases hl : s.loaded = true
  · rw [if_pos hl] at h
    by_cases hp : s.pc.toNat ≤ 4094
    · rw [fetch_of_le s hp] at h
      exact ⟨hl, hp, (finishStep_eq_next _ _).mp h⟩
    · rw [fetch_of_gt s (by omega)] at h
      simp [raise] at h
  · rw [if_neg hl] at h
    simp at h

/-- A loaded core with PC ≤ 4094 executes the instruction it decodes. -/
theorem step_of_loaded (s : State) (hl : s.loaded = true) (hp : s.pc.toNat ≤ 4094) :
    step s = finishStep
      (exec (decodeWord (wordOfBytes (s.mem.read s.pc.toNat) (s.mem.read (s.pc.toNat + 1)))) s.beginStep) := by
  unfold step
  rw [if_pos hl, fetch_of_le s hp]

end Sys2Proof.Machine
end

