-- ==== Sys2Proof/Laws/PerInstr.lean ====
section
/-! SUPPORT. Statements made per instruction. -/

namespace Sys2Proof.Laws

/-- The family TableRow: the word of an instruction has the mask and match of its row of the opcode map (30_encoding.md R50). -/
def TableRow.Statement (i : Instr) : Prop := i.row.accepts (encode i) = true

/-- The low bits of a word do not reach the bits above them: how a mask acts on two appended fields. -/
theorem append_and_append {m n : Nat} (a b : BitVec m) (c d : BitVec n) :
    (a ++ c) &&& (b ++ d) = (a &&& b) ++ (c &&& d) := by
  ext k hk
  simp only [BitVec.getElem_and, BitVec.getElem_append]
  split <;> simp

theorem accepts_encodeA (f : BitVec 4) (nnn : Addr12) :
    OpcodeRow.accepts ⟨0xF#4 ++ 0x000#12, f ++ 0x000#12⟩ (encodeA f nnn) = true := by
  have hf : f &&& 0xF#4 = f := BitVec.and_allOnes
  simp only [OpcodeRow.accepts, encodeA, beq_iff_eq]
  rw [append_and_append, hf, BitVec.and_zero]

theorem accepts_encodeXI (f : BitVec 4) (x : Reg) (nn : Byte) :
    OpcodeRow.accepts ⟨0xF#4 ++ 0x0#4 ++ 0x00#8, f ++ 0x0#4 ++ 0x00#8⟩ (encodeXI f x nn) = true := by
  have hf : f &&& 0xF#4 = f := BitVec.and_allOnes
  simp only [OpcodeRow.accepts, encodeXI, beq_iff_eq]
  rw [append_and_append, append_and_append, hf, BitVec.and_zero, BitVec.and_zero]

theorem accepts_encodeXY (f sub : BitVec 4) (x y : Reg) :
    OpcodeRow.accepts ⟨0xF#4 ++ 0x0#4 ++ 0x0#4 ++ 0xF#4, f ++ 0x0#4 ++ 0x0#4 ++ sub⟩ (encodeXY f x y sub) = true := by
  have hf : f &&& 0xF#4 = f := BitVec.and_allOnes
  have hs : sub &&& 0xF#4 = sub := BitVec.and_allOnes
  simp only [OpcodeRow.accepts, encodeXY, beq_iff_eq]
  rw [append_and_append, append_and_append, append_and_append, hf, hs, BitVec.and_zero, BitVec.and_zero]

theorem accepts_encodeXYN (x y : Reg) (n : RowCount) :
    OpcodeRow.accepts ⟨0xF#4 ++ 0x0#4 ++ 0x0#4 ++ 0x0#4, 0xD#4 ++ 0x0#4 ++ 0x0#4 ++ 0x0#4⟩ (encodeXYN x y n) = true := by
  simp only [OpcodeRow.accepts, encodeXYN, beq_iff_eq]
  rw [append_and_append, append_and_append, append_and_append]
  simp only [BitVec.and_zero]
  rfl

theorem accepts_encodeXS (f : BitVec 4) (sub : Byte) (x : Reg) :
    OpcodeRow.accepts ⟨0xF#4 ++ 0x0#4 ++ 0xFF#8, f ++ 0x0#4 ++ sub⟩ (encodeXS f x sub) = true := by
  have hf : f &&& 0xF#4 = f := BitVec.and_allOnes
  have hs : sub &&& 0xFF#8 = sub := BitVec.and_allOnes
  simp only [OpcodeRow.accepts, encodeXS, beq_iff_eq]
  rw [append_and_append, append_and_append, hf, hs, BitVec.and_zero]

namespace TableRow

theorem op00E0 : Statement .op00E0 := rfl
theorem op00EE : Statement .op00EE := rfl
theorem op1NNN (nnn : Addr12) : Statement (.op1NNN nnn) := accepts_encodeA 0x1 nnn
theorem op2NNN (nnn : Addr12) : Statement (.op2NNN nnn) := accepts_encodeA 0x2 nnn
theorem op3XNN (x : Reg) (nn : Byte) : Statement (.op3XNN x nn) := accepts_encodeXI 0x3 x nn
theorem op4XNN (x : Reg) (nn : Byte) : Statement (.op4XNN x nn) := accepts_encodeXI 0x4 x nn
theorem op5XY0 (x y : Reg) : Statement (.op5XY0 x y) := accepts_encodeXY 0x5 0x0 x y
theorem op6XNN (x : Reg) (nn : Byte) : Statement (.op6XNN x nn) := accepts_encodeXI 0x6 x nn
theorem op7XNN (x : Reg) (nn : Byte) : Statement (.op7XNN x nn) := accepts_encodeXI 0x7 x nn
theorem op8XY0 (x y : Reg) : Statement (.op8XY0 x y) := accepts_encodeXY 0x8 0x0 x y
theorem op8XY1 (x y : Reg) : Statement (.op8XY1 x y) := accepts_encodeXY 0x8 0x1 x y
theorem op8XY2 (x y : Reg) : Statement (.op8XY2 x y) := accepts_encodeXY 0x8 0x2 x y
theorem op8XY3 (x y : Reg) : Statement (.op8XY3 x y) := accepts_encodeXY 0x8 0x3 x y
theorem op8XY4 (x y : Reg) : Statement (.op8XY4 x y) := accepts_encodeXY 0x8 0x4 x y
theorem op8XY5 (x y : Reg) : Statement (.op8XY5 x y) := accepts_encodeXY 0x8 0x5 x y
theorem op8XY6 (x y : Reg) : Statement (.op8XY6 x y) := accepts_encodeXY 0x8 0x6 x y
theorem op8XY7 (x y : Reg) : Statement (.op8XY7 x y) := accepts_encodeXY 0x8 0x7 x y
theorem op8XYE (x y : Reg) : Statement (.op8XYE x y) := accepts_encodeXY 0x8 0xE x y
theorem op9XY0 (x y : Reg) : Statement (.op9XY0 x y) := accepts_encodeXY 0x9 0x0 x y
theorem opANNN (nnn : Addr12) : Statement (.opANNN nnn) := accepts_encodeA 0xA nnn
theorem opBNNN (nnn : Addr12) : Statement (.opBNNN nnn) := accepts_encodeA 0xB nnn
theorem opCXNN (x : Reg) (nn : Byte) : Statement (.opCXNN x nn) := accepts_encodeXI 0xC x nn
theorem opDXYN (x y : Reg) (n : RowCount) : Statement (.opDXYN x y n) := accepts_encodeXYN x y n
theorem opEX9E (x : Reg) : Statement (.opEX9E x) := accepts_encodeXS 0xE 0x9E x
theorem opEXA1 (x : Reg) : Statement (.opEXA1 x) := accepts_encodeXS 0xE 0xA1 x
theorem opFX07 (x : Reg) : Statement (.opFX07 x) := accepts_encodeXS 0xF 0x07 x
theorem opFX0A (x : Reg) : Statement (.opFX0A x) := accepts_encodeXS 0xF 0x0A x
theorem opFX15 (x : Reg) : Statement (.opFX15 x) := accepts_encodeXS 0xF 0x15 x
theorem opFX18 (x : Reg) : Statement (.opFX18 x) := accepts_encodeXS 0xF 0x18 x
theorem opFX1E (x : Reg) : Statement (.opFX1E x) := accepts_encodeXS 0xF 0x1E x
theorem opFX29 (x : Reg) : Statement (.opFX29 x) := accepts_encodeXS 0xF 0x29 x
theorem opFX33 (x : Reg) : Statement (.opFX33 x) := accepts_encodeXS 0xF 0x33 x
theorem opFX55 (x : Reg) : Statement (.opFX55 x) := accepts_encodeXS 0xF 0x55 x
theorem opFX65 (x : Reg) : Statement (.opFX65 x) := accepts_encodeXS 0xF 0x65 x
theorem unknown (w : Word) : Statement (.unknown w) := by simp [Statement, Instr.row, OpcodeRow.accepts]

end TableRow

end Sys2Proof.Laws
end

