-- ==== Sys2Proof/Tests/Slice0.lean ====
section
/-! SUPPORT. Tests. Expected values come from the spec: the opcode map of 30_encoding.md for the words, the vectors T-… of
95_test_vectors.md (named in each test's comment) for the steps. The last part shows, for each obligation with hypotheses, a
concrete state that meets them. -/

namespace Sys2Proof.Tests

open Sys2Proof.Machine

/-! ### Helpers -/

/-- The reset state with the given registers. -/
def regs (l : List (Reg × Byte)) : State := l.foldl (fun s p => s.writeV p.1 p.2) State.reset

/-- `s` with I set. -/
def withI (a : Word) (s : State) : State := { s with i := a }

/-- `s` with PC set. -/
def withPc (a : Word) (s : State) : State := { s with pc := a }

/-- `s` with SP set. -/
def withSp (n : Fin 17) (s : State) : State := { s with sp := n }

/-- `s` with bytes of memory from `a` on. -/
def withMem (a : Nat) (bs : List Byte) (s : State) : State := { s with mem := s.mem.writeBlock a bs }

/-- `s` with both timers set. -/
def withTimers (dt st : Byte) (s : State) : State := { s with dt := dt, st := st }

/-- `s` with exactly these keys pressed. -/
def withKeys (l : List (Fin 16)) (s : State) : State := { s with keys := Vector.ofFn fun k => l.contains k }

/-- `s` with these pixels flipped. -/
def withPixels (l : List (Fin 64 × Fin 32)) (s : State) : State :=
  { s with fb := l.foldl (fun fb p => fb.flip p.1 p.2) s.fb }

/-- The word runs as the next instruction and the state after it passes the check. -/
def after (w : Nat) (s : State) (check : State → Bool) : Bool :=
  match step (s.withFetchWord 16 w) with
  | .next t => check t
  | .fault _ => false
  | .refused _ => false

/-- The word runs as the next instruction and the step is this fault. -/
def faults (w : Nat) (s : State) (f : Fault) : Bool :=
  match step (s.withFetchWord 16 w) with
  | .next _ => false
  | .fault g => f == g
  | .refused _ => false

/-- The pixels of `on` are on and those of `off` are off. -/
def onOff (fb : Framebuffer) (on off : List (Fin 64 × Fin 32)) : Bool :=
  on.all (fun p => fb.pixel p.1 p.2) && off.all (fun p => !fb.pixel p.1 p.2)

theorem after_next {w : Nat} {s : State} {check : State → Bool} (h : after w s check = true) :
    ∃ t, step (s.withFetchWord 16 w) = .next t ∧ check t = true := by
  revert h
  unfold after
  cases step (s.withFetchWord 16 w) with
  | next t => exact fun h => ⟨t, rfl, h⟩
  | fault f => simp
  | refused r => simp

/-! ### Well-formedness -/

theorem test_wf_unknown_refuses_family_0 : (Instr.unknown 0x00E0).wf = false ∧ (Instr.unknown 0x00EE).wf = false := by decide
theorem test_wf_unknown_refuses_family_1_2_3_4 :
    (Instr.unknown 0x1200).wf = false ∧ (Instr.unknown 0x2FFF).wf = false ∧ (Instr.unknown 0x3A00).wf = false ∧
    (Instr.unknown 0x4A00).wf = false := by decide
theorem test_wf_unknown_refuses_family_5_6_7 :
    (Instr.unknown 0x5120).wf = false ∧ (Instr.unknown 0x6005).wf = false ∧ (Instr.unknown 0x700A).wf = false := by decide
theorem test_wf_unknown_refuses_family_8_9 :
    (Instr.unknown 0x8127).wf = false ∧ (Instr.unknown 0x812E).wf = false ∧ (Instr.unknown 0x9120).wf = false := by decide
theorem test_wf_unknown_refuses_family_A_B_C_D :
    (Instr.unknown 0xA300).wf = false ∧ (Instr.unknown 0xB300).wf = false ∧ (Instr.unknown 0xC10F).wf = false ∧
    (Instr.unknown 0xD010).wf = false := by decide
theorem test_wf_unknown_refuses_family_E_F :
    (Instr.unknown 0xE49E).wf = false ∧ (Instr.unknown 0xE4A1).wf = false ∧ (Instr.unknown 0xF565).wf = false := by decide

/-- T-U1 to T-U20, one or two of each family. -/
theorem test_wf_unknown_accepts :
    [0x0000#16, 0x00E1#16, 0x0123#16, 0x5121#16, 0x8128#16, 0x812F#16, 0x9121#16, 0xE000#16, 0xE1A2#16, 0xF108#16,
      0xFFFF#16].all (fun w => (Instr.unknown w).wf) = true := by decide

/-! ### Decoding: words written out from the opcode map -/

theorem test_decode_family_0 : decodeWord 0x00E0 = .op00E0 ∧ decodeWord 0x00EE = .op00EE := by decide
theorem test_decode_jump_call : decodeWord 0x1234 = .op1NNN 0x234 ∧ decodeWord 0x220A = .op2NNN 0x20A := by decide
theorem test_decode_skip_immediate : decodeWord 0x332A = .op3XNN 3 0x2A ∧ decodeWord 0x4F00 = .op4XNN 15 0x00 := by decide
theorem test_decode_skip_register : decodeWord 0x5120 = .op5XY0 1 2 ∧ decodeWord 0x9AB0 = .op9XY0 10 11 := by decide
theorem test_decode_immediate : decodeWord 0x6FAB = .op6XNN 15 0xAB ∧ decodeWord 0x700A = .op7XNN 0 0x0A := by decide
theorem test_decode_copy_or_and_xor :
    decodeWord 0x8120 = .op8XY0 1 2 ∧ decodeWord 0x8121 = .op8XY1 1 2 ∧ decodeWord 0x8122 = .op8XY2 1 2 ∧
    decodeWord 0x8123 = .op8XY3 1 2 := by decide
theorem test_decode_add_sub_shift :
    decodeWord 0x8F14 = .op8XY4 15 1 ∧ decodeWord 0x8125 = .op8XY5 1 2 ∧ decodeWord 0x8126 = .op8XY6 1 2 ∧
    decodeWord 0x8127 = .op8XY7 1 2 ∧ decodeWord 0x812E = .op8XYE 1 2 := by decide
theorem test_decode_index : decodeWord 0xA300 = .opANNN 0x300 ∧ decodeWord 0xB2FE = .opBNNN 0x2FE := by decide
theorem test_decode_random_draw : decodeWord 0xC10F = .opCXNN 1 0x0F ∧ decodeWord 0xD125 = .opDXYN 1 2 5 := by decide
theorem test_decode_keys : decodeWord 0xE49E = .opEX9E 4 ∧ decodeWord 0xE4A1 = .opEXA1 4 := by decide
theorem test_decode_timers :
    decodeWord 0xF307 = .opFX07 3 ∧ decodeWord 0xF50A = .opFX0A 5 ∧ decodeWord 0xF315 = .opFX15 3 ∧
    decodeWord 0xF318 = .opFX18 3 := by decide
theorem test_decode_index_memory :
    decodeWord 0xF21E = .opFX1E 2 ∧ decodeWord 0xFF29 = .opFX29 15 ∧ decodeWord 0xF033 = .opFX33 0 ∧
    decodeWord 0xF255 = .opFX55 2 ∧ decodeWord 0xF365 = .opFX65 3 := by decide

/-- 0NNN has no meaning here (R53), and the others are of R52. -/
theorem test_decode_unknown :
    decodeWord 0x0123 = .unknown 0x0123 ∧ decodeWord 0x5AAF = .unknown 0x5AAF ∧ decodeWord 0x8129 = .unknown 0x8129 ∧
    decodeWord 0x9121 = .unknown 0x9121 ∧ decodeWord 0xE09F = .unknown 0xE09F ∧ decodeWord 0xF1FF = .unknown 0xF1FF := by decide

/-- An instruction is two bytes; the table's numbering puts the first byte in the high half. -/
theorem test_decode_bytes :
    decodeBytes [0x60, 0x05, 0x70] = .ok (.op6XNN 0 5, [0x70]) ∧ decodeBytes [0x60] = .error .truncated ∧
    decodeBytes [] = .error .truncated ∧ decodeTableWord 16 0x6005 = some (.op6XNN 0 5) := by decide

/-! ### The cycle -/

/-- T-F2: the fetch works at the last PC, and the PC after it is 0x1000. -/
theorem test_fetch_last : after 0x6007 (withPc 0xFFE State.reset) (fun t => t.readV 0 == 7 && t.pc == 0x1000) = true := by decide

/-- T-F3, T-F4: fetches past the end. -/
theorem test_fetch_fault :
    (withPc 0xFFF State.reset).fetch = .error 4096 ∧ (withPc 0x1001 State.reset).fetch = .error 4097 := by decide

/-- T-F6: the word 0x0160 at an odd address. -/
theorem test_fetch_odd :
    after 0x0160 (withPc 0x201 State.reset) (fun t => t.pc == 0x203 && t.out.unknown && !t.out.fbDirty) = true := by decide

/-- T-U6. -/
theorem test_unknown :
    after 0x5121 (withTimers 2 2 (regs [(15, 7)]))
      (fun t => t.pc == 0x202 && t.dt == 1 && t.st == 1 && t.out == ⟨false, true, true⟩ && t.readV 15 == 7) = true := by decide

/-! ### Control transfer -/

/-- T-C1. -/
theorem test_00EE_underflow : faults 0x00EE State.reset .stackUnderflow = true := by decide

/-- T-C2. -/
theorem test_00EE :
    after 0x00EE (withSp 16 (State.reset.writeStk 15 0x0ABC)) (fun t => t.sp == 15 && t.pc == 0x0ABC) = true := by decide

/-- T-C3, T-C5. -/
theorem test_1NNN :
    after 0x1234 State.reset (fun t => t.pc == 0x234) = true ∧ after 0x1FFF State.reset (fun t => t.pc == 0xFFF) = true := by
  decide

/-- T-C8. -/
theorem test_2NNN :
    after 0x2FFE (withSp 15 State.reset) (fun t => t.stk[15] == 0x0202 && t.sp == 16 && t.pc == 0xFFE) = true := by decide

/-- T-C9. -/
theorem test_2NNN_overflow : faults 0x2300 (withSp 16 State.reset) .stackOverflow = true := by decide

/-- T-C10, T-C11. -/
theorem test_3XNN :
    after 0x332A (regs [(3, 0x2A)]) (fun t => t.pc == 0x204) = true ∧
    after 0x332B (regs [(3, 0x2A)]) (fun t => t.pc == 0x202) = true := by decide

/-- T-C13, T-C14. -/
theorem test_4XNN :
    after 0x432A (regs [(3, 0x2A)]) (fun t => t.pc == 0x202) = true ∧
    after 0x432B (regs [(3, 0x2A)]) (fun t => t.pc == 0x204) = true := by decide

/-- T-C16, T-C17. -/
theorem test_5XY0 :
    after 0x5120 (regs [(1, 7), (2, 7)]) (fun t => t.pc == 0x204) = true ∧
    after 0x5120 (regs [(1, 1), (2, 2)]) (fun t => t.pc == 0x202) = true := by decide

/-- T-C19, T-C20. -/
theorem test_9XY0 :
    after 0x9120 (regs [(1, 7), (2, 8)]) (fun t => t.pc == 0x204) = true ∧
    after 0x9120 (regs [(1, 1), (2, 1)]) (fun t => t.pc == 0x202) = true := by decide

/-- T-C23, T-C24: the offset is V0, and the sum is not reduced modulo 4096. -/
theorem test_BNNN :
    after 0xB2FE (regs [(0, 0xFF), (2, 0x77)]) (fun t => t.pc == 0x3FD) = true ∧
    after 0xBFFF (regs [(0, 0x02)]) (fun t => t.pc == 0x1001) = true := by decide

/-! ### Register load, arithmetic, logic, shift, random -/

/-- T-A1. -/
theorem test_6XNN : after 0x6FAB State.reset (fun t => t.readV 15 == 0xAB && t.pc == 0x202) = true := by decide

/-- T-A3: it wraps and records no carry. -/
theorem test_7XNN : after 0x7F01 (regs [(15, 0xFF)]) (fun t => t.readV 15 == 0x00) = true := by decide

/-- T-A38. -/
theorem test_8XY0 : after 0x8120 (regs [(2, 0x9C)]) (fun t => t.readV 1 == 0x9C && t.readV 2 == 0x9C) = true := by decide

/-- T-A40. -/
theorem test_8XY1 :
    after 0x8121 (regs [(1, 0xF0), (2, 0x0F), (15, 0x55)]) (fun t => t.readV 1 == 0xFF && t.readV 15 == 0x55) = true := by decide

/-- T-A41. -/
theorem test_8XY2 :
    after 0x8122 (regs [(1, 0xF3), (2, 0x3C), (15, 0x55)]) (fun t => t.readV 1 == 0x30 && t.readV 15 == 0x55) = true := by decide

/-- T-A42. -/
theorem test_8XY3 :
    after 0x8123 (regs [(1, 0xFF), (2, 0x0F), (15, 0x55)]) (fun t => t.readV 1 == 0xF0 && t.readV 15 == 0x55) = true := by decide

/-- T-A7. -/
theorem test_8XY4 : after 0x8124 (regs [(1, 0x80), (2, 0x7F)]) (fun t => t.readV 1 == 0xFF && t.readV 15 == 0) = true := by decide

/-- T-A9: X = F ends as the carry. -/
theorem test_8XY4_vf : after 0x8F14 (regs [(15, 0xF0), (1, 0x20)]) (fun t => t.readV 15 == 1 && t.readV 1 == 0x20) = true := by
  decide

/-- T-A12, T-A13. -/
theorem test_8XY5 :
    after 0x8125 (regs [(1, 0x10), (2, 0x20)]) (fun t => t.readV 1 == 0xF0 && t.readV 15 == 0) = true ∧
    after 0x8125 (regs [(1, 0x20), (2, 0x20)]) (fun t => t.readV 1 == 0x00 && t.readV 15 == 1) = true := by decide

/-- T-A18: Y = F, the old VF is the operand. -/
theorem test_8XY5_vf : after 0x81F5 (regs [(1, 3), (15, 5)]) (fun t => t.readV 1 == 0xFE && t.readV 15 == 0) = true := by decide

/-- T-A19. -/
theorem test_8XY6 :
    after 0x8126 (regs [(1, 0xAA), (2, 0x05)]) (fun t => t.readV 1 == 2 && t.readV 2 == 2 && t.readV 15 == 1) = true := by decide

/-- T-A23, T-A24: X = F or Y = F ends as the shifted value. -/
theorem test_8XY6_vf :
    after 0x8F26 (regs [(2, 0x05), (15, 0x77)]) (fun t => t.readV 2 == 2 && t.readV 15 == 2) = true ∧
    after 0x81F6 (regs [(15, 0x07), (1, 0x99)]) (fun t => t.readV 1 == 3 && t.readV 15 == 3) = true := by decide

/-- T-A28. -/
theorem test_8XY7 :
    after 0x8127 (regs [(1, 0x20), (2, 0x10)]) (fun t => t.readV 1 == 0xF0 && t.readV 15 == 0 && t.readV 2 == 0x10) = true := by
  decide

/-- T-A32. -/
theorem test_8XY7_vf : after 0x81F7 (regs [(1, 3), (15, 5)]) (fun t => t.readV 1 == 2 && t.readV 15 == 1) = true := by decide

/-- T-A27. -/
theorem test_8XYE :
    after 0x812E (regs [(1, 0x11), (2, 0x81)]) (fun t => t.readV 1 == 2 && t.readV 2 == 2 && t.readV 15 == 1) = true := by decide

/-- T-A37. -/
theorem test_8XYE_vf : after 0x81FE (regs [(15, 0x81)]) (fun t => t.readV 1 == 2 && t.readV 15 == 2) = true := by decide

/-- T-A49, T-A51, with the draw as the argument of the operation under the meaning. -/
theorem test_CXNN :
    (randomUnderMask 0xA7 1 0x0F State.reset).readV 1 = 0x07 ∧ (randomUnderMask 0x3C 15 0xFF State.reset).readV 15 = 0x3C := by
  decide

/-! ### Index and memory transfer -/

/-- T-M2. -/
theorem test_ANNN : after 0xAFFF State.reset (fun t => t.i == 0x0FFF && t.pc == 0x202) = true := by decide

/-- T-M4, T-M6. -/
theorem test_FX1E :
    after 0xF01E (withI 0x0FFF (regs [(0, 1), (15, 0x77)])) (fun t => t.i == 0x1000 && t.readV 15 == 0x77) = true ∧
    after 0xF11E (withI 0xFFF0 (regs [(1, 0xFF)])) (fun t => t.i == 0x00EF) = true := by decide

/-- T-M7, T-M9. -/
theorem test_FX29 :
    after 0xF329 (regs [(3, 0x0A)]) (fun t => t.i == 0x0032) = true ∧
    after 0xF029 (regs [(0, 0xFF)]) (fun t => t.i == 0x04FB) = true := by decide

/-- T-M12. -/
theorem test_FX33 :
    after 0xF033 (withI 0x0FFD (regs [(0, 255)])) (fun t => t.mem.readBlock 0xFFD 3 == [2, 5, 5] && t.i == 0x0FFD) = true := by
  decide

/-- T-M13, T-M16. -/
theorem test_FX33_fault :
    faults 0xF033 (withI 0x0FFE (regs [(0, 255)])) (.addressFault 4096) = true ∧
    faults 0xF033 (withI 0xFFFF (regs [(0, 255)])) (.addressFault 65535) = true := by decide

/-- T-M22. -/
theorem test_FX55 :
    after 0xF255 (withI 0x0400 (regs [(0, 0x11), (1, 0x22), (2, 0x33), (3, 0x44)]))
      (fun t => t.mem.readBlock 0x3FF 5 == [0, 0x11, 0x22, 0x33, 0] && t.i == 0x0400) = true := by decide

/-- T-M19. -/
theorem test_FX55_fault : faults 0xFF55 (withI 0x0FF1 State.reset) (.addressFault 4096) = true := by decide

/-- T-M26: the bytes of the instruction itself are loaded. -/
theorem test_FX65 :
    after 0xF365 (withI 0x01FE (regs [(3, 0xEE), (4, 0xEE)]))
      (fun t => t.v.toList.take 5 == [0, 0, 0xF3, 0x65, 0xEE] && t.i == 0x01FE) = true := by decide

/-- T-M24. -/
theorem test_FX65_fault : faults 0xF165 (withI 0x0FFF State.reset) (.addressFault 4096) = true := by decide

/-! ### Framebuffer -/

/-- T-D1. -/
theorem test_00E0 :
    after 0x00E0 (withPixels [(1, 1), (63, 31)] (regs [(15, 1)]))
      (fun t => onOff t.fb [] [(1, 1), (63, 31)] && t.readV 15 == 1 && t.out.fbDirty) = true := by decide

/-- T-D7: a sprite that wraps in both axes. -/
theorem test_DXYN_wraps :
    after 0xD012 (withI 0x20C (withMem 0x20C [0xC0, 0x81] (regs [(0, 62), (1, 31)])))
      (fun t => onOff t.fb [(62, 31), (63, 31), (62, 0), (5, 0)] [(0, 31), (61, 31), (63, 0), (4, 0), (6, 0), (62, 1)]
        && t.readV 15 == 0 && t.out.fbDirty) = true := by decide

/-- T-D14, T-D12: X = F with a collision, and a row outside memory. -/
theorem test_DXYN_vf_and_fault :
    after 0xDF11 (withPixels [(5, 2)] (withI 0x300 (withMem 0x300 [0x80] (regs [(15, 5), (1, 2)]))))
      (fun t => onOff t.fb [] [(5, 2)] && t.readV 15 == 1) = true ∧
    faults 0xD01F (withI 0x0FF2 State.reset) (.addressFault 4096) = true := by decide

/-! ### Keypad and timers -/

/-- T-K1, T-K3: the index is the register's value. -/
theorem test_EX9E :
    after 0xE49E (withKeys [10] (regs [(4, 0x0A)])) (fun t => t.pc == 0x204) = true ∧
    after 0xE09E (withKeys [0] (regs [(0, 0x03)])) (fun t => t.pc == 0x202) = true := by decide

/-- T-K5. -/
theorem test_EX9E_fault : faults 0xE49E (regs [(4, 0x10)]) (.keyIndexFault 16) = true := by decide

/-- T-K6, T-K7. -/
theorem test_EXA1 :
    after 0xE4A1 (regs [(4, 0x0A)]) (fun t => t.pc == 0x204) = true ∧
    after 0xE4A1 (withKeys [10] (regs [(4, 0x0A)])) (fun t => t.pc == 0x202) = true := by decide

/-- T-K8. -/
theorem test_EXA1_fault : faults 0xE4A1 (withKeys [15] (regs [(4, 0xFF)])) (.keyIndexFault 255) = true := by decide

/-- T-K13. -/
theorem test_FX07 :
    after 0xFF07 (withTimers 0x80 0x02 State.reset)
      (fun t => t.readV 15 == 0x80 && t.dt == 0x7F && t.st == 0x01 && t.out.soundOn) = true := by decide

/-- T-K21, T-K23, with the chosen key as the argument of the operation under the meaning. -/
theorem test_FX0A_records :
    chooseKey (pressedKeys (withKeys [7] State.reset).keys) 12345 = some 7 ∧
    (recordKey 7 5 State.reset).readV 5 = 0x07 ∧ (recordKey 7 5 State.reset).pc = 0x202 ∧
    chooseKey (pressedKeys (withKeys [3, 9] State.reset).keys) 0 = some 3 ∧
    chooseKey (pressedKeys (withKeys [3, 9] State.reset).keys) 1 = some 9 := by decide

/-- T-K20: no key, held. -/
theorem test_FX0A_holds :
    after 0xF50A (withTimers 3 1 (regs [(5, 0x99)]))
      (fun t => t.pc == 0x200 && t.wait && t.readV 5 == 0x99 && t.dt == 2 && t.st == 0 && !t.out.soundOn) = true := by decide

/-- T-K14, T-K16. -/
theorem test_FX15 :
    after 0xF315 (regs [(3, 0x3C)]) (fun t => t.dt == 0x3B) = true ∧
    after 0xF315 (withTimers 9 0 State.reset) (fun t => t.dt == 0) = true := by decide

/-- T-K18, T-K19. -/
theorem test_FX18 :
    after 0xF318 (regs [(3, 0x01)]) (fun t => t.st == 0 && !t.out.soundOn) = true ∧
    after 0xF318 (regs [(3, 0xFF)]) (fun t => t.st == 254 && t.out.soundOn) = true := by decide

/-! ### Load and reset -/

set_option maxRecDepth 8000 in
/-- T-R1 and S11. -/
theorem test_load :
    let t := (State.reset.load [0x60, 0x05, 0x70, 0x0A]).state
    t.mem.readBlock 0x1FF 6 = [0, 0x60, 0x05, 0x70, 0x0A, 0] ∧ t.mem.read 0x4F = 0x80 ∧ t.mem.read 0x50 = 0 ∧
    t.romImg = [0x60, 0x05, 0x70, 0x0A] := by decide

/-! ### Witnesses: what the hypotheses of the obligations ask for is met -/

/-- A state that runs the word next. -/
abbrev running (w : Nat) (s : State) : State := s.withFetchWord 16 w

/-- The instruction at PC. -/
abbrev next (s : State) : Instr := decodeWord (s.mem.read s.pc.toNat ++ s.mem.read (s.pc.toNat + 1))

/-- `exec` answers a next state. -/
def completes (i : Instr) (s : State) : Bool :=
  match exec i s with
  | .next _ => true
  | .fault _ => false
  | .refused _ => false

theorem exec_of_completes {i : Instr} {s : State} (h : completes i s = true) : ∃ t, exec i s = .next t := by
  revert h
  unfold completes
  cases exec i s with
  | next t => exact fun _ => ⟨t, rfl⟩
  | fault f => simp
  | refused r => simp

/-- A step completes whatever it leaves. -/
theorem step_of_after {w : Nat} {s : State} (h : after w s (fun _ => true) = true) : ∃ t, step (running w s) = .next t :=
  (after_next h).imp fun _ h => h.1

theorem reset_inv : State.reset.Inv where
  memory := Memory.wf_nil
  image := by decide
  pc := by decide
  stack := by decide
  waiting := by decide
  sound := by decide

theorem witness_StepRunsDecodedInstruction :
    ((running 0x6005 State.reset).loaded = true ∧ (running 0x6005 State.reset).pc.toNat ≤ 4094 ∧
      next (running 0x6005 State.reset) = .op6XNN 0 5 ∧ ∃ u, exec (.op6XNN 0 5) (running 0x6005 State.reset).beginStep = .next u) ∧
    ((running 0x00EE (withPc 4094 State.reset)).loaded = true ∧ (running 0x00EE (withPc 4094 State.reset)).pc.toNat = 4094 ∧
      next (running 0x00EE (withPc 4094 State.reset)) = .op00EE ∧
      exec .op00EE (running 0x00EE (withPc 4094 State.reset)).beginStep = .fault .stackUnderflow) :=
  ⟨⟨by decide, by decide, by decide, exec_of_completes (by decide)⟩, by decide, by decide, by decide, rfl⟩

theorem witness_FetchReadsBigEndianOrFaults :
    (withPc 4094 State.reset).pc.toNat ≤ 4094 ∧ (withPc 4095 State.reset).pc.toNat > 4094 ∧
    (withPc 4096 State.reset).pc.toNat > 4094 ∧ (withPc 4096 State.reset).loaded = true := by decide

/-- A core before its first load. -/
def unloaded : State := { State.reset with loaded := false }

/-- T-R5: a load that fails leaves it unloaded, `reset()` fails, and R128 gives the keypad write no result. -/
theorem test_unloaded :
    unloaded.hostReset.error = some .notLoaded ∧ unloaded.hostReset.state = unloaded ∧
    unloaded.writeKeys Keypad.released = none := ⟨rfl, rfl, rfl⟩

theorem witness_UnloadedCoreIsRefused : unloaded.loaded = false := rfl

theorem witness_PcUpdateFollowsTheTable :
    (∃ t, exec (.op3XNN 0 0) (withPc 4094 State.reset) = .next t) ∧ (withPc 4094 State.reset).pc.toNat ≤ 4094 :=
  ⟨exec_of_completes (by decide), by decide⟩

theorem witness_TimersTickInEveryStep :
    ((∃ t, step (running 0xF315 State.reset) = .next t) ∧ next (running 0xF315 State.reset) = .opFX15 3) ∧
    ((∃ t, step (running 0xF318 State.reset) = .next t) ∧ next (running 0xF318 State.reset) = .opFX18 3) ∧
    ((∃ t, step (running 0x1200 State.reset) = .next t) ∧ next (running 0x1200 State.reset) = .op1NNN 0x200 ∧
      (∀ x, Instr.op1NNN 0x200 ≠ .opFX15 x) ∧ ∀ x, Instr.op1NNN 0x200 ≠ .opFX18 x) :=
  ⟨⟨step_of_after (by decide), by decide⟩, ⟨step_of_after (by decide), by decide⟩, step_of_after (by decide), by decide,
    by simp, by simp⟩

theorem witness_OutcomeFlagsReportTheStep :
    (∃ t, step (running 0xD010 State.reset) = .next t) ∧ next (running 0xD010 State.reset) = .opDXYN 0 1 0 :=
  ⟨step_of_after (by decide), by decide⟩

theorem witness_UnknownWordOnlyAdvancesAndTicks :
    isUnknownWord 0x5121 = true ∧ (running 0x5121 State.reset).loaded = true ∧ (running 0x5121 State.reset).pc.toNat ≤ 4094 ∧
    (running 0x5121 State.reset).mem.read (running 0x5121 State.reset).pc.toNat ++
      (running 0x5121 State.reset).mem.read ((running 0x5121 State.reset).pc.toNat + 1) = (0x5121 : Word) := by decide

/-- A jump names nothing, a call is the stack clause with an entry other than the one pushed, FX55 is the memory clause. -/
theorem witness_EachInstructionKeepsWhatItDoesNotName :
    ((∃ t, exec (.op1NNN 0) State.reset = .next t) ∧ writesOf (.op1NNN 0) = []) ∧
    ((∃ t, exec (.op2NNN 0) State.reset = .next t) ∧ (1 : Fin 16).val ≠ State.reset.sp.val) ∧
    ((∃ t, exec (.opFX55 15) (withI 4080 State.reset) = .next t) ∧
      accessRange (.opFX55 15) (withI 4080 State.reset) = some (4080, 16)) :=
  ⟨⟨exec_of_completes (by decide), rfl⟩, ⟨exec_of_completes (by decide), by decide⟩, exec_of_completes (by decide), by decide⟩

theorem witness_InputsReachOnlyTheirInstructions :
    (∃ t, exec (.op6XNN 0 5) State.reset = .next t) ∧ readsKeys (.op6XNN 0 5) = false ∧
    (∀ x nn, Instr.op6XNN 0 5 ≠ .opCXNN x nn) ∧ ∀ x, Instr.op6XNN 0 5 ≠ .opFX0A x :=
  ⟨exec_of_completes (by decide), rfl, by simp, by simp⟩

/-- The reset state with a call placed at PC still meets the invariant, and it steps. -/
theorem witness_EveryStepKeepsTheInvariant :
    (running 0x2200 State.reset).Inv ∧ ∃ t, step (running 0x2200 State.reset) = .next t :=
  ⟨{ memory := by decide, image := by decide, pc := by decide, stack := by decide, waiting := by decide, sound := by decide },
    step_of_after (by decide)⟩

theorem witness_HostOperationsKeepTheInvariant :
    State.reset.Inv ∧ (unloaded.load [0x12, 0x00]).error = none ∧ ∃ t, State.reset.writeKeys Keypad.released = some t :=
  ⟨reset_inv, rfl, _, rfl⟩

/-- An FX0A with no key pressed. -/
theorem witness_WaitMarksANonCompletingKeyWait :
    (running 0xF50A State.reset).Inv ∧ (∃ t, step (running 0xF50A State.reset) = .next t) ∧
    next (running 0xF50A State.reset) = .opFX0A 5 ∧
    ∀ k : Fin 16, ((running 0xF50A State.reset).keyWrites.headD (running 0xF50A State.reset).keys)[k] = false :=
  ⟨{ memory := by decide, image := by decide, pc := by decide, stack := by decide, waiting := by decide, sound := by decide },
    step_of_after (by decide), by decide, by decide⟩

theorem witness_ReturnPopsIntoPc :
    State.reset.sp.val = 0 ∧ (withSp 1 State.reset).sp.val = (0 : Fin 16).val + 1 ∧
    (withSp 16 State.reset).sp.val = (15 : Fin 16).val + 1 := by decide

theorem witness_CallPushesAddressAfterIt :
    (withSp 16 State.reset).sp.val = 16 ∧ State.reset.sp.val = (0 : Fin 16).val ∧
    (withSp 15 State.reset).sp.val = (15 : Fin 16).val := by decide

theorem witness_CallThenReturnResumesAfterTheCall : (withSp 15 State.reset).sp.val < 16 := by decide

theorem witness_JumpToSelfLoopsWhileTimersRunDown :
    let s := running 0x1200 (withTimers 3 1 State.reset)
    s.loaded = true ∧ s.pc.toNat = (0x200 : Addr12).toNat ∧ s.pc.toNat ≤ 4094 ∧
    s.mem.read s.pc.toNat ++ s.mem.read (s.pc.toNat + 1) = 0x1#4 ++ (0x200 : Addr12) := by decide

theorem witness_CallToSelfFillsTheStackThenOverflows :
    let s := running 0x2200 State.reset
    s.loaded = true ∧ s.pc.toNat = (0x200 : Addr12).toNat ∧ s.pc.toNat ≤ 4094 ∧
    s.mem.read s.pc.toNat ++ s.mem.read (s.pc.toNat + 1) = 0x2#4 ++ (0x200 : Addr12) ∧ s.sp.val + 16 ≤ 16 := by decide

/-- The reset state itself, and PC already past the end. -/
theorem witness_ZeroedMemoryRunsOffTheEnd :
    (State.reset.loaded = true ∧ State.reset.pc.toNat ≤ 4096 ∧ State.reset.pc.toNat % 2 = 0 ∧
      (∀ a, State.reset.pc.toNat ≤ a → a < 4096 → State.reset.mem.read a = 0) ∧ State.reset.pc.toNat + 2 * 1792 ≤ 4096) ∧
    (withPc 4096 State.reset).pc.toNat ≤ 4096 ∧ (withPc 4096 State.reset).pc.toNat % 2 = 0 := by
  refine ⟨⟨rfl, by decide, by decide, fun a h _ => ?_, by decide⟩, by decide, by decide⟩
  have h : 512 ≤ a := h
  show Memory.unlisted a = 0
  rw [Memory.unlisted, dif_neg (by omega)]

/-- Operands other than VF, and a bit of a mask that is 0 (inside the byte, and above it). -/
theorem witness_operand_hypotheses :
    (3 : Reg) ≠ 15 ∧ (4 : Reg) ≠ 3 ∧ (4 : Reg) ≠ 15 ∧ (0x0F : Byte).getLsbD 7 = false ∧ (0xFF : Byte).getLsbD 8 = false := by decide

theorem witness_StoreDecimalDigits :
    (withI 4094 State.reset).i.toNat > 4093 ∧ (withI 4093 State.reset).i.toNat ≤ 4093 := by decide

/-- For `StoreRegisterRange` and `LoadRegisterRange`: I + X at 4096 and at 4095. -/
theorem witness_register_ranges :
    (withI 4081 State.reset).i.toNat + (15 : Reg).val > 4095 ∧ (withI 4080 State.reset).i.toNat + (15 : Reg).val ≤ 4095 := by decide

/-- The later state may be the one the store left. -/
theorem witness_StoredRegistersLoadBack :
    ∃ t s' : State, exec (.opFX55 15) (withI 4080 State.reset) = .next t ∧ s'.i = (withI 4080 State.reset).i ∧
      ∀ r : Reg, r ≤ 15 → s'.mem.read ((withI 4080 State.reset).i.toNat + r.val) =
        t.mem.read ((withI 4080 State.reset).i.toNat + r.val) := by
  obtain ⟨t, h⟩ := exec_of_completes (i := .opFX55 15) (s := withI 4080 State.reset) (by decide)
  exact ⟨t, { State.reset with i := 4080, mem := t.mem }, h, rfl, fun _ _ => rfl⟩

theorem witness_StoreIsSeenByTheNextFetch :
    (∃ t, step (running 0xF155 (withI 0x202 State.reset)) = .next t) ∧ (1 : Reg).val ≥ 1 ∧
    next (running 0xF155 (withI 0x202 State.reset)) = .opFX55 1 ∧
    (running 0xF155 (withI 0x202 State.reset)).i.toNat = (running 0xF155 (withI 0x202 State.reset)).pc.toNat + 2 :=
  ⟨step_of_after (by decide), by decide, by decide, by decide⟩

/-- A row outside memory; N = 0 with any I; the last row at 4095; a covered pixel that is on. -/
theorem witness_DrawInvertsCoveredPixels :
    ((15 : RowCount).val > 0 ∧ (withI 4082 State.reset).i.toNat + (15 : RowCount).val - 1 > 4095) ∧
    ((0 : RowCount).val = 0 ∨ (withI 0xFFFF State.reset).i.toNat + (0 : RowCount).val - 1 ≤ 4095) ∧
    ((withI 4081 State.reset).i.toNat + (15 : RowCount).val - 1 ≤ 4095) ∧
    (∃ px py, (withPixels [(0, 0)] State.reset).fb.pixel px py = true ∧
      spriteCovers (withMem 0x300 [0x80] State.reset).mem 0x300 1 0 0 px py) ∧
    (¬∃ px py, State.reset.fb.pixel px py = true ∧ spriteCovers (withMem 0x300 [0x80] State.reset).mem 0x300 1 0 0 px py) := by
  refine ⟨by decide, by decide, by decide, ⟨0, 0, by decide, 0, by decide, 0, by decide, by decide, by decide, by decide⟩, ?_⟩
  rintro ⟨px, py, h, -⟩
  have h : Framebuffer.clear.pixel px py = true := h
  simp [Framebuffer.pixel, Framebuffer.clear] at h

theorem draw_completes (x y : Reg) (n : RowCount) (s : State) (h : n.val = 0 ∨ s.i.toNat + n.val ≤ 4096) :
    ∃ u, exec (.opDXYN x y n) s = .next u := by
  simp only [exec, execDXYN]
  rw [withRange_of_ok s.base _ _ h]
  exact ⟨_, rfl⟩

/-- The reset state with the framebuffer the first draw left, drawn on again. -/
theorem witness_DrawingTwiceRestoresTheFramebuffer :
    ∃ t, exec (.opDXYN 0 1 5) State.reset = .next t ∧ (∃ u, exec (.opDXYN 0 1 5) (State.reset.setFb t.fb) = .next u) ∧
      (0 : Reg) ≠ 15 ∧ (1 : Reg) ≠ 15 := by
  obtain ⟨t, h⟩ := draw_completes 0 1 5 State.reset (by decide)
  exact ⟨t, h, draw_completes 0 1 5 _ (.inr (by show 0 + 5 ≤ 4096; decide)), by decide, by decide⟩

theorem witness_KeySkipsTestTheSnapshot :
    ((regs [(4, 16)]).readV 4).toNat > 15 ∧ ((regs [(4, 15)]).readV 4).toNat = (15 : Fin 16).val ∧
    ((regs []).readV 4).toNat = (0 : Fin 16).val := by decide

theorem witness_ReadTimerStepGivesValueBeforeTheTick :
    (running 0xF307 (withTimers 5 0 State.reset)).loaded = true ∧ (running 0xF307 (withTimers 5 0 State.reset)).pc.toNat ≤ 4094 ∧
    next (running 0xF307 (withTimers 5 0 State.reset)) = .opFX07 3 := by decide

theorem witness_KeyWaitHoldsOrRecordsAPressedKey :
    (∀ k : Fin 16, State.reset.keys[k] = false) ∧ (withKeys [0] State.reset).keys[(0 : Fin 16)] = true ∧
    (withKeys [15] State.reset).keys[(15 : Fin 16)] = true := by decide

/-- With no write to come and no key pressed. -/
theorem witness_WaitingStepsChangeOnlyTimers :
    let s := running 0xF50A State.reset
    s.loaded = true ∧ s.pc.toNat ≤ 4094 ∧ next s = .opFX0A 5 ∧ (s.keyWrites = [] → ∀ k : Fin 16, s.keys[k] = false) ∧
    (∀ keys ∈ s.keyWrites, ∀ k : Fin 16, keys[k] = false) ∧ 1 > 0 :=
  ⟨rfl, by decide, by decide, fun _ => by decide, by simp [running, State.withFetchWord, State.placeWord, State.reset], by decide⟩

/-- With key 5 pressed in KEYS, which a write still to come releases. -/
theorem witness_WaitingStepsChangeOnlyTimers_pending :
    let s := running 0xF50A ((withKeys [5] State.reset).setKeyWrites [Keypad.released])
    s.loaded = true ∧ s.pc.toNat ≤ 4094 ∧ next s = .opFX0A 5 ∧ s.keys[(5 : Fin 16)] = true ∧
    (s.keyWrites = [] → ∀ k : Fin 16, s.keys[k] = false) ∧
    (∀ keys ∈ s.keyWrites, ∀ k : Fin 16, keys[k] = false) ∧ 1 > 0 := by
  refine ⟨rfl, by decide, by decide, by decide, fun h => ?_, ?_, by decide⟩
  · have h : [Keypad.released] = [] := h
    simp at h
  · intro keys h
    have h : keys ∈ [Keypad.released] := h
    rw [List.mem_singleton.mp h]
    decide

theorem witness_HostWritesKeysAndReadsDevices :
    State.reset.loaded = true ∧ State.reset.keyWrites = [] ∧
    ({ State.reset with keyWrites := [Keypad.released] } : State).keyWrites = Keypad.released :: [] := ⟨rfl, rfl, rfl⟩

theorem witness_DecodeOfEncodeIsTheInstruction :
    (Instr.opDXYN 15 15 15).wf = true ∧ (Instr.opANNN 0xFFF).wf = true ∧ (Instr.unknown 0xFFFF).wf = true := by decide

theorem witness_opcode_rows :
    (⟨0xF00F, 0x800E⟩ : OpcodeRow) ∈ opcodeRows ∧ (0x812E : Word) &&& 0xF00F = 0x800E ∧
    ∀ r ∈ opcodeRows, (0x5121 : Word) &&& r.mask ≠ r.value := by decide

/-- For the statements about a load: the empty image, one of 3584 bytes, and one of 3585 that is refused. -/
theorem witness_load_lengths :
    ([] : List Byte).length ≤ 3584 ∧ (List.replicate 3584 (0xAA : Byte)).length ≤ 3584 ∧
    (List.replicate 3585 (0xAA : Byte)).length > 3584 ∧ (unloaded.load (List.replicate 3585 0xAA)).error ≠ none := by
  refine ⟨by decide, by rw [List.length_replicate], by rw [List.length_replicate]; decide, ?_⟩
  rw [State.load, if_pos (by rw [List.length_replicate]; decide)]
  simp

set_option maxRecDepth 8000 in
/-- A run of no step, and one of one step. -/
theorem witness_ResetUndoesEveryRun :
    (∃ t, Host.Core.run core 0 (State.reset.load [0x60, 0x05]).state = .next t) ∧
    ∃ t, Host.Core.run core 1 (State.reset.load [0x12, 0x00]).state = .next t := by
  refine ⟨⟨_, rfl⟩, ?_⟩
  have hl : (State.reset.load [0x12, 0x00]).state.loaded = true := rfl
  have hp : (State.reset.load [0x12, 0x00]).state.pc.toNat ≤ 4094 := by decide
  have hw : next (State.reset.load [0x12, 0x00]).state = .op1NNN 0x200 := by decide
  have h := step_of_loaded _ hl hp
  rw [show decodeWord (wordOfBytes _ _) = Instr.op1NNN 0x200 from hw] at h
  exact ⟨_, run_of_next 0 _ _ h⟩

theorem witness_ResetIsTheLoadOfTheEmptyImage : unloaded.font = defaultFont := rfl

end Sys2Proof.Tests
end

section
/-! PROOFS. The decoder against the opcode map (30_encoding.md R49, R50). -/

namespace Sys2Proof.Laws
open Sys2Proof.Machine

/-! ### A word put together from its fields (R47) -/

theorem encodeA_fields (w : Word) : encodeA (fieldFamily w) (fieldNNN w) = w := by
  apply BitVec.eq_of_toNat_eq
  rw [toNat_encodeA, toNat_fieldFamily, toNat_fieldNNN]
  omega

theorem encodeXY_fields (w : Word) : encodeXY (fieldFamily w) (fieldX w) (fieldY w) (fieldSub w) = w := by
  apply BitVec.eq_of_toNat_eq
  rw [toNat_encodeXY, toNat_fieldFamily, val_fieldX, val_fieldY, toNat_fieldSub]
  omega

theorem encodeXS_fields (w : Word) : encodeXS (fieldFamily w) (fieldX w) (fieldNN w) = w := by
  apply BitVec.eq_of_toNat_eq
  rw [toNat_encodeXS, toNat_fieldFamily, val_fieldX, toNat_fieldNN]
  omega

/-! ### The tested fields of a masked word -/

theorem fieldFamily_and (a b : Word) : fieldFamily (a &&& b) = fieldFamily a &&& fieldFamily b := BitVec.extractLsb'_and

theorem fieldSub_and (a b : Word) : fieldSub (a &&& b) = fieldSub a &&& fieldSub b := BitVec.extractLsb'_and

theorem fieldNN_and (a b : Word) : fieldNN (a &&& b) = fieldNN a &&& fieldNN b := BitVec.extractLsb'_and

/-! ### The decoder answers a row that accepts the word -/

/-- Formats A, XI and XYN: the row's mask has the family alone (R50). -/
theorem accepts_of_family {w v : Word} (hfam : (fieldFamily w).toNat = (fieldFamily v).toNat)
    (hv : fieldFamily v ++ 0x000#12 = v) : OpcodeRow.accepts ⟨0xF000, v⟩ w = true := by
  have h := accepts_encodeA (fieldFamily w) (fieldNNN w)
  rwa [encodeA_fields, BitVec.eq_of_toNat_eq hfam, hv] at h

/-- Format XY: the row's mask has the family and the low nibble (R50). -/
theorem accepts_of_family_sub {w v : Word} (hfam : (fieldFamily w).toNat = (fieldFamily v).toNat)
    (hsub : (fieldSub w).toNat = (fieldSub v).toNat) (hv : fieldFamily v ++ 0x0#4 ++ 0x0#4 ++ fieldSub v = v) :
    OpcodeRow.accepts ⟨0xF00F, v⟩ w = true := by
  have h := accepts_encodeXY (fieldFamily w) (fieldSub w) (fieldX w) (fieldY w)
  rwa [encodeXY_fields, BitVec.eq_of_toNat_eq hfam, BitVec.eq_of_toNat_eq hsub, hv] at h

/-- Format XS: the row's mask has the family and the low byte (R50). -/
theorem accepts_of_family_byte {w v : Word} (hfam : (fieldFamily w).toNat = (fieldFamily v).toNat)
    (hbyte : (fieldNN w).toNat = (fieldNN v).toNat) (hv : fieldFamily v ++ 0x0#4 ++ fieldNN v = v) :
    OpcodeRow.accepts ⟨0xF0FF, v⟩ w = true := by
  have h := accepts_encodeXS (fieldFamily w) (fieldNN w) (fieldX w)
  rwa [encodeXS_fields, BitVec.eq_of_toNat_eq hfam, BitVec.eq_of_toNat_eq hbyte, hv] at h

theorem row_ite_accepts {c : Prop} [Decidable c] {i j : Instr} {w : Word} (hi : c → i.row.accepts w = true)
    (hj : j.row.accepts w = true) : (if c then i else j).row.accepts w = true := by
  split
  next hc => exact hi hc
  next => exact hj

theorem row_decode0_accepts (w : Word) : (decode0 w).row.accepts w = true := by
  unfold decode0
  iterate 2 refine row_ite_accepts (fun h => h ▸ rfl) ?_
  exact TableRow.unknown w

theorem row_decode8_accepts {w : Word} (hfam : (fieldFamily w).toNat = 0x8) : (decode8 w).row.accepts w = true := by
  unfold decode8
  split
  case h_10 => exact TableRow.unknown w
  all_goals
    rename_i hsub
    exact accepts_of_family_sub hfam hsub rfl

theorem row_decodeE_accepts {w : Word} (hfam : (fieldFamily w).toNat = 0xE) : (decodeE w).row.accepts w = true := by
  unfold decodeE
  iterate 2 refine row_ite_accepts (fun h => accepts_of_family_byte hfam (congrArg BitVec.toNat h) rfl) ?_
  exact TableRow.unknown w

theorem row_decodeF_accepts {w : Word} (hfam : (fieldFamily w).toNat = 0xF) : (decodeF w).row.accepts w = true := by
  unfold decodeF
  iterate 9 refine row_ite_accepts (fun h => accepts_of_family_byte hfam (congrArg BitVec.toNat h) rfl) ?_
  exact TableRow.unknown w

/-- The decoder is sound for the opcode map; the row of `unknown` accepts every word. -/
theorem row_decodeWord_accepts (w : Word) : (decodeWord w).row.accepts w = true := by
  unfold decodeWord
  split
  case h_1 => exact row_decode0_accepts w
  case h_6 hfam | h_10 hfam =>
    exact row_ite_accepts (fun h => accepts_of_family_sub hfam (congrArg BitVec.toNat h) rfl) (TableRow.unknown w)
  case h_9 hfam => exact row_decode8_accepts hfam
  case h_15 hfam => exact row_decodeE_accepts hfam
  case h_16 hfam => exact row_decodeF_accepts hfam
  case h_17 => exact TableRow.unknown w
  all_goals
    rename_i hfam
    exact accepts_of_family hfam rfl

/-! ### A word decodes to every row that accepts it -/

/-- `w` has the digits of `v` that the decode procedure tests in the family of `v` (R49). -/
structure SameDispatch (w v : Word) : Prop where
  family : fieldFamily w = fieldFamily v
  word : (fieldFamily v).toNat = 0x0 → w = v
  sub : (fieldFamily v).toNat ∈ [0x5, 0x8, 0x9] → fieldSub w = fieldSub v
  byte : (fieldFamily v).toNat ∈ [0xE, 0xF] → fieldNN w = fieldNN v

theorem row_decode8_congr {w v : Word} (h : fieldSub w = fieldSub v) : (decode8 w).row = (decode8 v).row := by
  unfold decode8
  rw [h]
  split <;> rfl

theorem row_decodeE_congr {w v : Word} (h : fieldNN w = fieldNN v) : (decodeE w).row = (decodeE v).row := by
  simp only [decodeE, h, apply_ite Instr.row]
  rfl

theorem row_decodeF_congr {w v : Word} (h : fieldNN w = fieldNN v) : (decodeF w).row = (decodeF v).row := by
  simp only [decodeF, h, apply_ite Instr.row]
  rfl

/-- The decoder finds the row from the tested digits alone. -/
theorem row_decodeWord_congr {w v : Word} (h : SameDispatch w v) : (decodeWord w).row = (decodeWord v).row := by
  obtain ⟨hfam, hword, hsub, hbyte⟩ := h
  unfold decodeWord
  rw [hfam]
  split
  case h_1 hv => rw [hword hv]
  case h_6 hv | h_10 hv =>
    rw [hsub (by simp [hv])]
    split_ifs <;> rfl
  case h_9 hv => exact row_decode8_congr (hsub (by simp [hv]))
  case h_15 hv => exact row_decodeE_congr (hbyte (by simp [hv]))
  case h_16 hv => exact row_decodeF_congr (hbyte (by simp [hv]))
  all_goals rfl

/-- The mask of a row has every digit the decode procedure tests in the row's family (R49, R50, decision D4). -/
theorem mask_covers_dispatch : ∀ r ∈ opcodeRows, fieldFamily r.mask = BitVec.allOnes 4 ∧
    ((fieldFamily r.value).toNat = 0x0 → r.mask = BitVec.allOnes 16) ∧
    ((fieldFamily r.value).toNat ∈ [0x5, 0x8, 0x9] → fieldSub r.mask = BitVec.allOnes 4) ∧
    ((fieldFamily r.value).toNat ∈ [0xE, 0xF] → fieldNN r.mask = BitVec.allOnes 8) := by decide

theorem sameDispatch_of_match {w : Word} {r : OpcodeRow} (hr : r ∈ opcodeRows) (h : w &&& r.mask = r.value) :
    SameDispatch w r.value := by
  obtain ⟨hfam, hword, hsub, hbyte⟩ := mask_covers_dispatch r hr
  constructor
  case family => rw [← h, fieldFamily_and, hfam, BitVec.and_allOnes]
  case word =>
    intro hv
    rw [← h, hword hv, BitVec.and_allOnes]
  case sub =>
    intro hv
    rw [← h, fieldSub_and, hsub hv, BitVec.and_allOnes]
  case byte =>
    intro hv
    rw [← h, fieldNN_and, hbyte hv, BitVec.and_allOnes]

/-- The word of a row with every operand digit zero decodes to the row (R50). -/
theorem row_decodeWord_value : ∀ r ∈ opcodeRows, (decodeWord r.value).row = r := by decide

/-- A word matches the row of the instruction it decodes to and no other of the rows 1 to 34 (R50). -/
theorem match_iff_row_decodeWord {w : Word} {r : OpcodeRow} (hr : r ∈ opcodeRows) :
    w &&& r.mask = r.value ↔ (decodeWord w).row = r := by
  constructor
  · intro h
    rw [row_decodeWord_congr (sameDispatch_of_match hr h), row_decodeWord_value r hr]
  · rintro rfl
    exact eq_of_beq (row_decodeWord_accepts w)

theorem row_mem_opcodeRows_iff (i : Instr) : i.row ∈ opcodeRows ↔ isUnknown i = false := by
  cases i
  case unknown w =>
    have hrow : (⟨0x0000, 0x0000⟩ : OpcodeRow) ∉ opcodeRows := by decide
    exact iff_of_false hrow Bool.noConfusion
  all_goals exact iff_of_true (List.mem_of_elem_eq_true rfl) rfl

/-- Settles O49: both clauses follow from `match_iff_row_decodeWord`, because exactly the known instructions have a row in the
map. -/
theorem decodeFollowsTheOpcodeMap : Obligations.DecodeFollowsTheOpcodeMap := by
  intro w
  have hknown := row_mem_opcodeRows_iff (decodeWord w)
  constructor
  · intro r hr
    rw [match_iff_row_decodeWord hr, iff_and_self]
    rintro rfl
    exact hknown.mp hr
  · rw [← Bool.not_eq_false, ← hknown]
    constructor
    · rintro hun r hr h
      exact hun ((match_iff_row_decodeWord hr).mp h ▸ hr)
    · intro h hmem
      exact h _ hmem ((match_iff_row_decodeWord hmem).mpr rfl)

end Sys2Proof.Laws
end

section
/-! PROOFS. The cycle: the fetch, the PC update and the tick (40_cycle.md R59 to R64). -/

namespace Sys2Proof.Laws
open Sys2Proof.Machine

/-! ### How an instruction with a check completes -/

theorem body_of_withRange_next {base n : Nat} {body : Result} {t : State} (h : withRange base n body = .next t) :
    body = .next t := by
  obtain ⟨-, -, hfault⟩ | ⟨-, hbody⟩ := withRange_cases base n body
  · rw [hfault] at h
    cases h
  · rw [← hbody, h]

/-- 00EE completes with SP ≥ 1 only, and moves the last stack entry to PC (41_control_flow.md R69). -/
theorem exec00EE_next {s t : State} (h : exec00EE s = .next t) :
    ∃ _ : 0 < s.sp.val, t = (s.setSp ⟨s.sp.val - 1, by omega⟩).setPc s.stk[s.sp.val - 1] := by
  unfold exec00EE at h
  obtain ⟨-, hpop⟩ | ⟨hsp, hpop⟩ := pop_cases s
  · rw [hpop] at h
    cases h
  · rw [hpop] at h
    exact ⟨hsp, (Host.Outcome.next.inj h).symm⟩

/-- 2NNN completes with SP ≤ 15 only: it pushes PC + 2 and jumps (R71). -/
theorem exec2NNN_next {nnn : Addr12} {s t : State} (h : exec2NNN nnn s = .next t) :
    ∃ hsp : s.sp.val < 16,
      t = ((s.writeStk ⟨s.sp.val, hsp⟩ (s.pc + 2)).setSp ⟨s.sp.val + 1, by omega⟩).setPc (addrWord nnn) := by
  unfold exec2NNN at h
  obtain ⟨-, hpush⟩ | ⟨hsp, hpush⟩ := push_cases s (s.pc + 2)
  · rw [hpush] at h
    cases h
  · rw [hpush] at h
    exact ⟨hsp, (Host.Outcome.next.inj h).symm⟩

/-- An operation that tests the key a byte names completes with a byte up to 15 only, on the state of that key. -/
theorem keyTest_next {keys : Keypad} {b : Byte} {f : Fault} {skip : Bool → State} {t : State}
    (h : (match keyState keys b with | none => raise f | some pressed => .next (skip pressed)) = Host.Outcome.next t) :
    ∃ k : Fin 16, k.val = b.toNat ∧ t = skip keys[k] := by
  cases hkey : keyState keys b with
  | none =>
    rw [hkey] at h
    cases h
  | some pressed =>
    obtain ⟨k, hk, rfl⟩ := (keyState_eq_some _ _ _).mp hkey
    rw [hkey] at h
    exact ⟨k, hk, (Host.Outcome.next.inj h).symm⟩

/-- EX9E completes as the skip on the key that V[X] names being pressed (45_keypad_timers.md R99). -/
theorem execEX9E_next {x : Reg} {s t : State} (h : execEX9E x s = .next t) :
    ∃ k : Fin 16, k.val = (s.readV x).toNat ∧ t = s.skipIf s.keys[k] :=
  keyTest_next h

/-- EXA1 completes as the skip on the key that V[X] names not being pressed (R100). -/
theorem execEXA1_next {x : Reg} {s t : State} (h : execEXA1 x s = .next t) :
    ∃ k : Fin 16, k.val = (s.readV x).toNat ∧ t = s.skipIf (!s.keys[k]) :=
  keyTest_next (skip := fun pressed => s.skipIf (!pressed)) h

/-- FX0A sets WAIT when no key is pressed, and otherwise records a pressed key (R102). -/
theorem execFX0A_next {x : Reg} {s t : State} (h : execFX0A x s = .next t) :
    ((∀ k : Fin 16, s.keys[k] = false) ∧ t = s.setWait true) ∨
    ∃ k : Fin 16, s.keys[k] = true ∧ t = recordKey k x s.countKey := by
  unfold execFX0A at h
  cases hkey : chooseKey (pressedKeys s.keys) (Config.keySelect s.keyDraws) with
  | none =>
    rw [hkey] at h
    exact .inl ⟨(pressedKeys_eq_nil _).mp ((chooseKey_eq_none _ _).mp hkey), (Host.Outcome.next.inj h).symm⟩
  | some k =>
    rw [hkey] at h
    exact .inr ⟨k, (mem_pressedKeys _ _).mp (chooseKey_mem _ _ _ hkey), (Host.Outcome.next.inj h).symm⟩

/-! ### The PC update (R63) -/

theorem pc_skipIf {s : State} {c : Bool} {p : Prop} [Decidable p] (h : c = true ↔ p) : (s.skipIf c).pc = skipPc s p := by
  simp only [State.skipIf_pc, skipPc, h]

/-- The key of a given index is unique, so it has state `b` exactly when some key of that index does. -/
theorem key_eq_iff {keys : Keypad} {k : Fin 16} {n : Nat} (hk : k.val = n) (b : Bool) :
    keys[k] = b ↔ ∃ j : Fin 16, j.val = n ∧ keys[j] = b := by
  constructor
  · exact fun h => ⟨k, hk, h⟩
  · rintro ⟨j, hj, h⟩
    obtain rfl := Fin.ext (hk.trans hj.symm)
    exact h

/-- A completing operation leaves PC at the table's `next_pc`. -/
theorem exec_pc {i : Instr} {s t : State} (h : exec i s = .next t) : t.pc = nextPcOf i s := by
  cases i
  case op00EE =>
    obtain ⟨hsp, rfl⟩ := exec00EE_next h
    rfl
  case op2NNN nnn =>
    obtain ⟨hsp, rfl⟩ := exec2NNN_next h
    rfl
  case op3XNN x nn | op5XY0 x y =>
    obtain rfl := Host.Outcome.next.inj h
    exact pc_skipIf beq_iff_eq
  case op4XNN x nn | op9XY0 x y =>
    obtain rfl := Host.Outcome.next.inj h
    exact pc_skipIf bne_iff_ne
  case opBNNN nnn =>
    obtain rfl := Host.Outcome.next.inj h
    exact BitVec.eq_of_toNat_eq (by simp [nextPcOf, v0])
  case opEX9E x =>
    obtain ⟨k, hk, rfl⟩ := execEX9E_next h
    exact pc_skipIf (key_eq_iff hk true)
  case opEXA1 x =>
    obtain ⟨k, hk, rfl⟩ := execEXA1_next h
    exact pc_skipIf ((Bool.not_eq_true' _).to_iff.trans (key_eq_iff hk false))
  case opFX0A x =>
    obtain ⟨hkeys, rfl⟩ | ⟨k, hk, rfl⟩ := execFX0A_next h
    · exact (if_pos hkeys).symm
    · exact (if_neg fun hkeys => Bool.noConfusion ((hkeys k).symm.trans hk)).symm
  case opDXYN x y n | opFX33 x | opFX55 x | opFX65 x =>
    obtain rfl := Host.Outcome.next.inj (body_of_withRange_next h)
    rfl
  all_goals
    obtain rfl := Host.Outcome.next.inj h
    rfl

/-- From a PC that the fetch accepts, neither the default nor the skip wraps (R60, R63). -/
theorem toNat_pc_add_of_le {pc : Word} (h : pc.toNat ≤ 4094) :
    (pc + 2).toNat = pc.toNat + 2 ∧ (pc + 4).toNat = pc.toNat + 4 := by
  constructor <;> bv_omega

/-- Settles O4: every operation's PC is the table's, and 4098 is below 65536. -/
theorem pcUpdateFollowsTheTable : Obligations.PcUpdateFollowsTheTable :=
  fun _ _ _ h => ⟨exec_pc h, toNat_pc_add_of_le⟩

/-! ### The timers (R64) -/

/-- DT after the execute phase: FX15 sets it (45_keypad_timers.md R103). -/
def dtBeforeTick (i : Instr) (s : State) : Byte :=
  match i with
  | .opFX15 x => s.readV x
  | _ => s.dt

/-- ST after the execute phase: FX18 sets it (R104). -/
def stBeforeTick (i : Instr) (s : State) : Byte :=
  match i with
  | .opFX18 x => s.readV x
  | _ => s.st

@[simp] theorem dtBeforeTick_opFX15 (x : Reg) (s : State) : dtBeforeTick (.opFX15 x) s = s.readV x := rfl

@[simp] theorem stBeforeTick_opFX18 (x : Reg) (s : State) : stBeforeTick (.opFX18 x) s = s.readV x := rfl

theorem dtBeforeTick_of_ne {i : Instr} (h : ∀ x, i ≠ .opFX15 x) (s : State) : dtBeforeTick i s = s.dt := by
  unfold dtBeforeTick
  split
  · next x => exact absurd rfl (h x)
  · rfl

theorem stBeforeTick_of_ne {i : Instr} (h : ∀ x, i ≠ .opFX18 x) (s : State) : stBeforeTick i s = s.st := by
  unfold stBeforeTick
  split
  · next x => exact absurd rfl (h x)
  · rfl

/-- The execute phase leaves the timers alone but for FX15 and FX18. -/
theorem exec_timers {i : Instr} {s t : State} (h : exec i s = .next t) :
    t.dt = dtBeforeTick i s ∧ t.st = stBeforeTick i s := by
  cases i
  case op00EE =>
    obtain ⟨hsp, rfl⟩ := exec00EE_next h
    exact ⟨rfl, rfl⟩
  case op2NNN nnn =>
    obtain ⟨hsp, rfl⟩ := exec2NNN_next h
    exact ⟨rfl, rfl⟩
  case opEX9E x =>
    obtain ⟨k, hk, rfl⟩ := execEX9E_next h
    exact ⟨rfl, rfl⟩
  case opEXA1 x =>
    obtain ⟨k, hk, rfl⟩ := execEXA1_next h
    exact ⟨rfl, rfl⟩
  case opFX0A x =>
    obtain ⟨hkeys, rfl⟩ | ⟨k, hk, rfl⟩ := execFX0A_next h
    · exact ⟨rfl, rfl⟩
    · exact ⟨rfl, rfl⟩
  case opDXYN x y n | opFX33 x | opFX55 x | opFX65 x =>
    obtain rfl := Host.Outcome.next.inj (body_of_withRange_next h)
    exact ⟨rfl, rfl⟩
  all_goals
    obtain rfl := Host.Outcome.next.inj h
    exact ⟨rfl, rfl⟩

/-- A step that answers a next state ticks each timer once, from the value the execute phase left. -/
theorem step_timers {s t : State} {i : Instr} (h : step s = .next t)
    (hi : decodeWord (s.mem.read s.pc.toNat ++ s.mem.read (s.pc.toNat + 1)) = i) :
    t.dt.toNat = (dtBeforeTick i s.beginStep).toNat - 1 ∧ t.st.toNat = (stBeforeTick i s.beginStep).toNat - 1 := by
  obtain ⟨-, -, u, hexec, rfl⟩ := step_next s t h
  rw [wordOfBytes, hi] at hexec
  obtain ⟨hdt, hst⟩ := exec_timers hexec
  simp only [endStep_eq, toNat_tickTimer, hdt, hst, and_self]

/-- Settles O5: the keypad write at the start of a step reaches no timer and no V register, so the values ticked are those of
the state before the step. -/
theorem timersTickInEveryStep : Obligations.TimersTickInEveryStep := by
  intro s t i h hi
  obtain ⟨hdt, hst⟩ := step_timers h hi
  refine ⟨?_, fun hne => ?_, ?_, fun hne => ?_⟩
  · rintro x rfl
    simpa using hdt
  · rwa [dtBeforeTick_of_ne hne, beginStep_dt] at hdt
  · rintro x rfl
    simpa using hst
  · rwa [stBeforeTick_of_ne hne, beginStep_st] at hst

/-! ### The fetch (R60) -/

/-- A loaded core with PC above 4094 faults at the lowest address out of range (decision D7). -/
theorem step_of_fetch_fault (s : State) (hl : s.loaded = true) (hp : s.pc.toNat > 4094) :
    step s = .fault (.addressFault (max s.pc.toNat 4096)) := by
  unfold step
  rw [if_pos hl, fetch_of_gt s hp]
  rfl

/-- Settles O2: the obligation writes `max PC 4096`, the fault of the fetch, as a case split at 4096. -/
theorem fetchReadsBigEndianOrFaults : Obligations.FetchReadsBigEndianOrFaults := by
  intro s
  have hmax : (if s.pc.toNat ≥ 4096 then s.pc.toNat else 4096) = max s.pc.toNat 4096 := by split <;> omega
  rw [hmax]
  exact ⟨fun hp => ⟨_, fetch_of_le s hp, toNat_wordOfBytes _ _⟩, fetch_of_gt s, step_of_fetch_fault s⟩

end Sys2Proof.Laws
end

section
/-! PROOFS. The fields and the decoding of an encoded word, format by format (30_encoding.md R47, R49). -/

namespace Sys2Proof.Laws
open Sys2Proof.Machine

/-! ### The fields of an encoded word (R47) -/

@[simp] theorem fieldFamily_encodeA (f : BitVec 4) (nnn : Addr12) : fieldFamily (encodeA f nnn) = f := by
  apply BitVec.eq_of_toNat_eq
  rw [toNat_fieldFamily, toNat_encodeA]
  omega

@[simp] theorem fieldNNN_encodeA (f : BitVec 4) (nnn : Addr12) : fieldNNN (encodeA f nnn) = nnn := by
  apply BitVec.eq_of_toNat_eq
  rw [toNat_fieldNNN, toNat_encodeA]
  omega

@[simp] theorem fieldFamily_encodeXI (f : BitVec 4) (x : Reg) (nn : Byte) : fieldFamily (encodeXI f x nn) = f := by
  apply BitVec.eq_of_toNat_eq
  rw [toNat_fieldFamily, toNat_encodeXI]
  omega

@[simp] theorem fieldX_encodeXI (f : BitVec 4) (x : Reg) (nn : Byte) : fieldX (encodeXI f x nn) = x := by
  apply Fin.ext
  rw [val_fieldX, toNat_encodeXI]
  omega

@[simp] theorem fieldNN_encodeXI (f : BitVec 4) (x : Reg) (nn : Byte) : fieldNN (encodeXI f x nn) = nn := by
  apply BitVec.eq_of_toNat_eq
  rw [toNat_fieldNN, toNat_encodeXI]
  omega

@[simp] theorem fieldFamily_encodeXY (f : BitVec 4) (x y : Reg) (sub : BitVec 4) :
    fieldFamily (encodeXY f x y sub) = f := by
  apply BitVec.eq_of_toNat_eq
  rw [toNat_fieldFamily, toNat_encodeXY]
  omega

@[simp] theorem fieldX_encodeXY (f : BitVec 4) (x y : Reg) (sub : BitVec 4) : fieldX (encodeXY f x y sub) = x := by
  apply Fin.ext
  rw [val_fieldX, toNat_encodeXY]
  omega

@[simp] theorem fieldY_encodeXY (f : BitVec 4) (x y : Reg) (sub : BitVec 4) : fieldY (encodeXY f x y sub) = y := by
  apply Fin.ext
  rw [val_fieldY, toNat_encodeXY]
  omega

@[simp] theorem fieldSub_encodeXY (f : BitVec 4) (x y : Reg) (sub : BitVec 4) :
    fieldSub (encodeXY f x y sub) = sub := by
  apply BitVec.eq_of_toNat_eq
  rw [toNat_fieldSub, toNat_encodeXY]
  omega

/-! Format XYN is format XY with the row count for the sub-opcode, and format XS is format XI with the sub-opcode for NN. -/

@[simp] theorem fieldFamily_encodeXYN (x y : Reg) (n : RowCount) : fieldFamily (encodeXYN x y n) = 0xD :=
  fieldFamily_encodeXY 0xD x y (nibble n)

@[simp] theorem fieldX_encodeXYN (x y : Reg) (n : RowCount) : fieldX (encodeXYN x y n) = x :=
  fieldX_encodeXY 0xD x y (nibble n)

@[simp] theorem fieldY_encodeXYN (x y : Reg) (n : RowCount) : fieldY (encodeXYN x y n) = y :=
  fieldY_encodeXY 0xD x y (nibble n)

@[simp] theorem fieldN_encodeXYN (x y : Reg) (n : RowCount) : fieldN (encodeXYN x y n) = n := by
  apply Fin.ext
  rw [val_fieldN, toNat_encodeXYN]
  omega

@[simp] theorem fieldFamily_encodeXS (f : BitVec 4) (x : Reg) (sub : Byte) : fieldFamily (encodeXS f x sub) = f :=
  fieldFamily_encodeXI f x sub

@[simp] theorem fieldX_encodeXS (f : BitVec 4) (x : Reg) (sub : Byte) : fieldX (encodeXS f x sub) = x :=
  fieldX_encodeXI f x sub

@[simp] theorem fieldNN_encodeXS (f : BitVec 4) (x : Reg) (sub : Byte) : fieldNN (encodeXS f x sub) = sub :=
  fieldNN_encodeXI f x sub

/-! ### Decoding an encoded word (R49) -/

/-- Every one of the 34 operations decodes from its own word: the decode procedure tests the family and the sub-opcode that the
format put there, and takes the operands from where it put them. -/
theorem decodeWord_encode {i : Instr} (h : isUnknown i = false) : decodeWord (encode i) = i := by
  cases i
  case unknown w => cases h
  case op00E0 | op00EE => rfl
  case op1NNN nnn | op2NNN nnn | opANNN nnn | opBNNN nnn => simp [encode, decodeWord]
  case op3XNN x nn | op4XNN x nn | op6XNN x nn | op7XNN x nn | opCXNN x nn => simp [encode, decodeWord]
  case op5XY0 x y | op9XY0 x y => simp [encode, decodeWord]
  case opDXYN x y n => simp [encode, decodeWord]
  case opEX9E x | opEXA1 x => simp [encode, decodeWord, decodeE]
  case opFX07 x | opFX0A x | opFX15 x | opFX18 x | opFX1E x | opFX29 x | opFX33 x | opFX55 x | opFX65 x =>
    simp [encode, decodeWord, decodeF]
  case op8XY0 x y | op8XY1 x y | op8XY2 x y | op8XY3 x y | op8XY4 x y | op8XY5 x y | op8XY6 x y | op8XY7 x y | op8XYE x y =>
    simp [encode, decodeWord, decode8]

end Sys2Proof.Laws
end

section
/-! PROOFS. The jumps and the register skips (41_control_flow.md R70, R72 to R76). -/

namespace Sys2Proof.Laws
open Sys2Proof.Machine

/-! ### Jumps -/

/-- NNN is zero-extended into PC and I (30_encoding.md R48). -/
@[simp] theorem toNat_addrWord (nnn : Addr12) : (addrWord nnn).toNat = nnn.toNat :=
  BitVec.toNat_setWidth_of_le (by decide)

/-- Settles O16: PC is NNN zero-extended, so it has the value of NNN. -/
theorem jumpSetsPc : Obligations.JumpSetsPc := fun nnn s =>
  ⟨decodeWord_encode (i := .op1NNN nnn) rfl, s.setPc (addrWord nnn), rfl, toNat_addrWord nnn, rfl⟩

/-- NNN + V0 is at most 4095 + 255, below the modulus of PC (R76). -/
theorem toNat_offsetTarget (nnn : Addr12) (b : Byte) :
    (BitVec.ofNat 16 (nnn.toNat + b.toNat)).toNat = nnn.toNat + b.toNat := by
  have hnnn := nnn.isLt
  have hb := b.isLt
  rw [BitVec.toNat_ofNat, Nat.mod_eq_of_lt (by omega)]

/-- Settles O19: the sum of a 12-bit and an 8-bit number fits the 16 bits of PC. -/
theorem offsetJumpAddsV0 : Obligations.OffsetJumpAddsV0 := fun nnn s =>
  ⟨decodeWord_encode (i := .opBNNN nnn) rfl, s.setPc _, rfl, toNat_offsetTarget nnn (s.readV 0), rfl⟩

/-! ### Register skips -/

theorem toNat_skipPc (s : State) (p : Prop) [Decidable p] :
    (skipPc s p).toNat = (s.pc.toNat + if p then 4 else 2) % 65536 := by
  unfold skipPc
  split
  · exact BitVec.toNat_add s.pc 4
  · exact BitVec.toNat_add s.pc 2

/-- An instruction whose meaning is `skipIf` completes and moves PC alone, by 4 or by 2 (40_cycle.md R63). -/
theorem exec_skip {i : Instr} {s : State} {c : Bool} {p : Prop} [Decidable p]
    (hexec : exec i s = .next (s.skipIf c)) (hc : c = true ↔ p) :
    ∃ t, exec i s = .next t ∧ t = { s with pc := t.pc } ∧
      t.pc.toNat = (s.pc.toNat + if p then 4 else 2) % 65536 :=
  ⟨s.skipIf c, hexec, rfl, by rw [pc_skipIf hc, toNat_skipPc]⟩

theorem beq_iff_toNat_eq (a b : Byte) : (a == b) = true ↔ a.toNat = b.toNat :=
  beq_iff_eq.trans BitVec.toNat_inj.symm

theorem bne_iff_toNat_ne (a b : Byte) : (a != b) = true ↔ a.toNat ≠ b.toNat :=
  bne_iff_ne.trans BitVec.toNat_inj.symm.not

/-- Settles O18: all four are `skipIf`, on the equality or the difference of two bytes. -/
theorem skipsCompareRegisters : Obligations.SkipsCompareRegisters := fun x y nn _ =>
  ⟨decodeWord_encode (i := .op3XNN x nn) rfl, decodeWord_encode (i := .op4XNN x nn) rfl,
    decodeWord_encode (i := .op5XY0 x y) rfl, decodeWord_encode (i := .op9XY0 x y) rfl,
    exec_skip rfl (beq_iff_toNat_eq _ _), exec_skip rfl (bne_iff_toNat_ne _ _),
    exec_skip rfl (beq_iff_toNat_eq _ _), exec_skip rfl (bne_iff_toNat_ne _ _)⟩

end Sys2Proof.Laws
end

section
/-! PROOFS. Register load, copy, bitwise and arithmetic (42_alu.md R77 to R84). -/

namespace Sys2Proof.Laws
open Sys2Proof.Machine

/-! ### Instructions that write V[X] and no flag -/

/-- An instruction whose meaning is one register write completes, and changes that register and PC alone. -/
theorem exec_writeV {i : Instr} {s : State} {x : Reg} {b : Byte} (hexec : exec i s = .next (s.writeV x b).advance) :
    ∃ t, exec i s = .next t ∧ t = { s with v := t.v, pc := s.pc + 2 } ∧
      ∀ r, t.readV r = if r = x then b else s.readV r :=
  ⟨_, hexec, rfl, fun r => State.readV_writeV s x r b⟩

/-- Settles O24: both are one register write, 7XNN of the sum modulo 256. -/
theorem loadAndAddImmediate : Obligations.LoadAndAddImmediate := by
  intro x nn s
  obtain ⟨t, hexec, hframe, hv⟩ := exec_writeV (i := .op7XNN x nn) (s := s) rfl
  refine ⟨decodeWord_encode (i := .op6XNN x nn) rfl, decodeWord_encode (i := .op7XNN x nn) rfl,
    exec_writeV rfl, t, hexec, hframe, ?_, fun r hr => ?_⟩
  · rw [hv, if_pos rfl, toNat_addByte]
  · rw [hv, if_neg hr]

/-- Settles O25: all four are one register write. -/
theorem copyAndBitwise : Obligations.CopyAndBitwise := fun x y _ =>
  ⟨decodeWord_encode (i := .op8XY0 x y) rfl, decodeWord_encode (i := .op8XY1 x y) rfl,
    decodeWord_encode (i := .op8XY2 x y) rfl, decodeWord_encode (i := .op8XY3 x y) rfl,
    exec_writeV rfl, exec_writeV rfl, exec_writeV rfl, exec_writeV rfl⟩

/-! ### Instructions that write V[X] and then the flag -/

/-- An instruction that writes a result and then the flag completes with the flag in VF, and with the result in V[X] where the flag
did not replace it; it changes those two registers and PC alone (10_state.md R13). -/
theorem exec_writeV_vf {i : Instr} {s : State} {x : Reg} {b flag : Byte}
    (hexec : exec i s = .next ((s.writeV x b).writeV vf flag).advance) :
    ∃ t, exec i s = .next t ∧ t = { s with v := t.v, pc := s.pc + 2 } ∧
      t.readV 15 = flag ∧ (x ≠ 15 → t.readV x = b) ∧ ∀ r, r ≠ x → r ≠ 15 → t.readV r = s.readV r := by
  refine ⟨_, hexec, rfl, ?_, fun hx => ?_, fun r hrx hrf => ?_⟩
  · simp [vf]
  · simp [vf, hx]
  · simp [vf, hrx, hrf]

/-- Settles O26: the result is the sum modulo 256 and the flag is the carry. -/
theorem addRegistersSetsCarry : Obligations.AddRegistersSetsCarry := by
  intro x y s
  obtain ⟨t, hexec, hframe, hflag, hx, hrest⟩ := exec_writeV_vf (i := .op8XY4 x y) (s := s) rfl
  refine ⟨decodeWord_encode (i := .op8XY4 x y) rfl, t, hexec, hframe, ?_, fun hne => ?_, hrest⟩
  · rw [hflag, toNat_carryFlag]
  · rw [hx hne, toNat_addByte]

/-- Settles O27: the result is the difference modulo 256 and the flag is 1 when there is no borrow. -/
theorem subtractSetsNoBorrow : Obligations.SubtractSetsNoBorrow := by
  intro x y s
  obtain ⟨t, hexec, hframe, hflag, hx, hrest⟩ := exec_writeV_vf (i := .op8XY5 x y) (s := s) rfl
  refine ⟨decodeWord_encode (i := .op8XY5 x y) rfl, t, hexec, hframe, ?_, fun hne => ?_, hrest⟩
  · rw [hflag, toNat_noBorrowFlag]
  · rw [hx hne, toInt_subByte]

end Sys2Proof.Laws
end

section
/-! PROOFS. The instructions that set the index register (43_index_memory.md R90 to R92). -/

namespace Sys2Proof.Laws
open Sys2Proof.Machine

/-- An instruction whose meaning is one write of I completes, and changes I and PC alone. -/
theorem exec_setI {i : Instr} {s : State} {a : Word} {n : Nat} (hexec : exec i s = .next (s.setI a).advance)
    (ha : a.toNat = n) : ∃ t, exec i s = .next t ∧ t = { s with i := t.i, pc := s.pc + 2 } ∧ t.i.toNat = n :=
  ⟨_, hexec, rfl, ha⟩

/-- Settles O31: all three are one write of I, of NNN, of the sum modulo 65536 and of the glyph address. -/
theorem indexLoadAddAndGlyph : Obligations.IndexLoadAddAndGlyph := fun x nnn s =>
  ⟨decodeWord_encode (i := .opANNN nnn) rfl, decodeWord_encode (i := .opFX1E x) rfl, decodeWord_encode (i := .opFX29 x) rfl,
    exec_setI rfl (toNat_addrWord nnn),
    exec_setI rfl (BitVec.toNat_ofNat (s.i.toNat + (s.readV x).toNat) 16),
    exec_setI rfl ((toNat_glyphAddress (s.readV x)).trans (Nat.mul_comm 5 (s.readV x).toNat))⟩

end Sys2Proof.Laws
end

section
/-! PROOFS. When `load` and `reset()` fail (70_reset_and_hazards.md R125, R127). -/

namespace Sys2Proof.Laws
open Sys2Proof.Machine

/-- A load reports RomTooLargeError exactly when the image is longer than 3584 bytes (R125). -/
theorem load_error_eq_romTooLarge (s : State) (rom : List Byte) :
    (s.load rom).error = some .romTooLarge ↔ rom.length > 3584 := by
  obtain ⟨hlen, hload⟩ | ⟨hlen, hload⟩ := load_cases s rom
  · simp [hload, hlen]
  · simp [hload, hlen]

/-- A load that reports any error leaves the core as it was (R125). -/
theorem load_state_of_error (s : State) (rom : List Byte) (h : (s.load rom).error ≠ none) : (s.load rom).state = s := by
  obtain ⟨-, hload⟩ | ⟨-, hload⟩ := load_cases s rom
  · rw [hload]
  · exact absurd (by rw [hload]) h

/-- A load never reports NotLoadedError: it needs no earlier load. -/
theorem load_error_ne_notLoaded (s : State) (rom : List Byte) : (s.load rom).error ≠ some .notLoaded := by
  obtain ⟨-, hload⟩ | ⟨-, hload⟩ := load_cases s rom
  · simp [hload]
  · simp [hload]

/-- `reset()` reports NotLoadedError exactly on a core no load has succeeded on (R127). -/
theorem hostReset_error_eq_notLoaded (s : State) : s.hostReset.error = some .notLoaded ↔ s.loaded = false := by
  obtain ⟨hl, hreset⟩ | ⟨hl, hreset⟩ := hostReset_cases s
  · simp [hreset, hl]
  · simp [hreset, hl, load_error_ne_notLoaded]

/-- `reset()` on an unloaded core leaves it as it was (R127). -/
theorem hostReset_state_of_not_loaded (s : State) (h : s.loaded = false) : s.hostReset.state = s := by
  obtain ⟨-, hreset⟩ | ⟨hl, -⟩ := hostReset_cases s
  · rw [hreset]
  · simp [h] at hl

/-- Settles O54: a load reports no error but RomTooLargeError, so on a loaded core `reset()` does not report NotLoadedError. -/
theorem loadAndResetFailOnlyAsStated : Obligations.LoadAndResetFailOnlyAsStated := fun s =>
  ⟨load_error_eq_romTooLarge s, load_state_of_error s, hostReset_error_eq_notLoaded s, hostReset_state_of_not_loaded s⟩

end Sys2Proof.Laws
end

section
/-! PROOFS. The decoder against the encoder and the list of unknown words (30_encoding.md R46 to R52). -/

namespace Sys2Proof.Laws
open Sys2Proof.Machine

/-! ### Encoding what was decoded -/

theorem encode_ite_eq {c : Prop} [Decidable c] {i j : Instr} {w : Word} (hi : c → encode i = w) (hj : encode j = w) :
    encode (if c then i else j) = w := by
  split
  next hc => exact hi hc
  next => exact hj

/-! The word of each format, from the digits the decode procedure found (R47). -/

theorem encodeA_of_family {w : Word} {f : BitVec 4} (hfam : (fieldFamily w).toNat = f.toNat) :
    encodeA f (fieldNNN w) = w := by
  obtain rfl := BitVec.eq_of_toNat_eq hfam
  exact encodeA_fields w

theorem encodeXI_of_family {w : Word} {f : BitVec 4} (hfam : (fieldFamily w).toNat = f.toNat) :
    encodeXI f (fieldX w) (fieldNN w) = w := by
  obtain rfl := BitVec.eq_of_toNat_eq hfam
  exact encodeXS_fields w

theorem encodeXYN_of_family {w : Word} (hfam : (fieldFamily w).toNat = 0xD) :
    encodeXYN (fieldX w) (fieldY w) (fieldN w) = w := by
  have h := encodeXY_fields w
  rwa [BitVec.eq_of_toNat_eq (y := 0xD#4) hfam] at h

theorem encodeXY_of_family_sub {w : Word} {f sub : BitVec 4} (hfam : (fieldFamily w).toNat = f.toNat)
    (hsub : (fieldSub w).toNat = sub.toNat) : encodeXY f (fieldX w) (fieldY w) sub = w := by
  obtain rfl := BitVec.eq_of_toNat_eq hfam
  obtain rfl := BitVec.eq_of_toNat_eq hsub
  exact encodeXY_fields w

theorem encodeXS_of_family_byte {w : Word} {f : BitVec 4} {sub : Byte} (hfam : (fieldFamily w).toNat = f.toNat)
    (hbyte : fieldNN w = sub) : encodeXS f (fieldX w) sub = w := by
  obtain rfl := BitVec.eq_of_toNat_eq hfam
  rw [← hbyte]
  exact encodeXS_fields w

theorem encode_decode0 (w : Word) : encode (decode0 w) = w := by
  unfold decode0
  iterate 2 refine encode_ite_eq Eq.symm ?_
  rfl

theorem encode_decode8 {w : Word} (hfam : (fieldFamily w).toNat = 0x8) : encode (decode8 w) = w := by
  unfold decode8
  split
  case h_10 => rfl
  all_goals
    rename_i hsub
    exact encodeXY_of_family_sub hfam hsub

theorem encode_decodeE {w : Word} (hfam : (fieldFamily w).toNat = 0xE) : encode (decodeE w) = w := by
  unfold decodeE
  iterate 2 refine encode_ite_eq (fun hbyte => encodeXS_of_family_byte hfam hbyte) ?_
  rfl

theorem encode_decodeF {w : Word} (hfam : (fieldFamily w).toNat = 0xF) : encode (decodeF w) = w := by
  unfold decodeF
  iterate 9 refine encode_ite_eq (fun hbyte => encodeXS_of_family_byte hfam hbyte) ?_
  rfl

/-- The decoder loses nothing of the word. -/
theorem encode_decodeWord (w : Word) : encode (decodeWord w) = w := by
  unfold decodeWord
  split
  case h_1 => exact encode_decode0 w
  case h_2 hfam | h_3 hfam | h_11 hfam | h_12 hfam => exact encodeA_of_family hfam
  case h_4 hfam | h_5 hfam | h_7 hfam | h_8 hfam | h_13 hfam => exact encodeXI_of_family hfam
  case h_6 hfam | h_10 hfam =>
    exact encode_ite_eq (fun hsub => encodeXY_of_family_sub hfam (congrArg BitVec.toNat hsub)) rfl
  case h_9 hfam => exact encode_decode8 hfam
  case h_14 hfam => exact encodeXYN_of_family hfam
  case h_15 hfam => exact encode_decodeE hfam
  case h_16 hfam => exact encode_decodeF hfam
  case h_17 => rfl

/-! ### The unknown words (R52) -/

/-- A test that leads to one of the 34 operations leaves the unknown words among those that fail it. -/
theorem isUnknown_ite {c : Prop} [Decidable c] {i j : Instr} (hi : isUnknown i = false) :
    isUnknown (if c then i else j) = (!decide c && isUnknown j) := by
  by_cases hc : c <;> simp [hc, hi]

theorem isUnknown_decode0 (w : Word) : isUnknown (decode0 w) = (w != 0x00E0 && w != 0x00EE) := by
  unfold decode0
  rw [isUnknown_ite rfl, isUnknown_ite rfl, isUnknown, Bool.and_true]
  rfl

/-- Sixteen low nibbles, of which seven are no instruction of family 8. -/
theorem isUnknown_decode8 (w : Word) : isUnknown (decode8 w) =
    [0x8#4, 0x9#4, 0xA#4, 0xB#4, 0xC#4, 0xD#4, 0xF#4].contains (fieldSub w) := by
  unfold decode8
  generalize fieldSub w = sub
  obtain ⟨⟨k, hk⟩⟩ := sub
  interval_cases k <;> rfl

theorem isUnknown_decodeE (w : Word) : isUnknown (decodeE w) = !([0x9E#8, 0xA1#8].contains (fieldNN w)) := by
  unfold decodeE
  iterate 2 rw [isUnknown_ite rfl]
  simp [isUnknown]

theorem isUnknown_decodeF (w : Word) : isUnknown (decodeF w) =
    !([0x07#8, 0x0A#8, 0x15#8, 0x18#8, 0x1E#8, 0x29#8, 0x33#8, 0x55#8, 0x65#8].contains (fieldNN w)) := by
  unfold decodeF
  iterate 9 rw [isUnknown_ite rfl]
  simp [isUnknown]

/-- The decoder answers `unknown` for the words that the list names family by family (R49, R52, decision D4). -/
theorem isUnknown_decodeWord (w : Word) : isUnknown (decodeWord w) = isUnknownWord w := by
  have hfamily : (w.extractLsb' 12 4).toNat = (fieldFamily w).toNat := rfl
  unfold decodeWord isUnknownWord
  rw [hfamily]
  split
  case h_1 hfam => simp only [hfam]; exact isUnknown_decode0 w
  case h_9 hfam => simp only [hfam]; exact isUnknown_decode8 w
  case h_15 hfam => simp only [hfam]; exact isUnknown_decodeE w
  case h_16 hfam => simp only [hfam]; exact isUnknown_decodeF w
  case h_6 hfam | h_10 hfam =>
    simp only [hfam]
    rw [isUnknown_ite rfl, isUnknown, Bool.and_true]
    rfl
  case h_17 => 
    have hlt := (fieldFamily w).isLt
    simp only [imp_false] at *
    omega
  all_goals
    rename_i hfam
    simp only [hfam]
    rfl

/-- A word that decodes to `unknown` is carried by it. -/
theorem decodeWord_eq_unknown_iff (w : Word) : decodeWord w = .unknown w ↔ isUnknownWord w = true := by
  rw [← isUnknown_decodeWord]
  constructor
  · intro h
    rw [h]
    rfl
  · intro h
    have hw := encode_decodeWord w
    cases hi : decodeWord w
    case unknown v =>
      rw [hi] at hw
      exact congrArg Instr.unknown hw
    all_goals
      rw [hi] at h
      cases h

theorem wf_of_isUnknown_eq_false {i : Instr} (h : isUnknown i = false) : i.wf = true := by
  cases i
  case unknown w => cases h
  all_goals rfl

/-- Settles O51: the decoder's families are those of the list. -/
theorem unknownWordsAreTheListedOnes : Obligations.UnknownWordsAreTheListedOnes := decodeWord_eq_unknown_iff

/-- Settles O47: the 34 operations decode from the fields their format put together, and `unknown` from the words of the
list. -/
theorem decodeOfEncodeIsTheInstruction : Obligations.DecodeOfEncodeIsTheInstruction := by
  intro i hwf
  cases hi : isUnknown i
  case false => exact decodeWord_encode hi
  case true =>
    cases i
    case unknown w => exact (decodeWord_eq_unknown_iff w).mpr hwf
    all_goals cases hi

/-- Settles O48: a word of the 34 operations decodes to a well-formed instruction by its type, any other to `unknown` with a word of
the list. -/
theorem encodeOfDecodeIsTheWord : Obligations.EncodeOfDecodeIsTheWord := by
  intro w
  refine ⟨?_, encode_decodeWord w⟩
  cases hw : isUnknownWord w
  case false => exact wf_of_isUnknown_eq_false ((isUnknown_decodeWord w).trans hw)
  case true =>
    rw [(decodeWord_eq_unknown_iff w).mpr hw]
    exact hw

/-- Settles O50: a row that a word matches is the row of the instruction the word decodes to. -/
theorem opcodePatternsAreDisjoint : Obligations.OpcodePatternsAreDisjoint :=
  ⟨rfl, by decide, fun _ _ hr _ hq hwr hwq =>
    ((match_iff_row_decodeWord hr).mp hwr).symm.trans ((match_iff_row_decodeWord hq).mp hwq)⟩

/-- Settles O46: each word is closed, and the decoder computes. -/
theorem specWordsDecode : Obligations.SpecWordsDecode := by
  unfold Obligations.SpecWordsDecode
  decide

/-! ### Decoding bytes (R46) -/

theorem decodeBytes_eq_truncated_iff (bytes : List Byte) : decodeBytes bytes = .error .truncated ↔ bytes.length < 2 := by
  match bytes with
  | [] | [_] => simp [decodeBytes]
  | hi :: lo :: rest => simp [decodeBytes]

/-- Settles O52: the word of the two bytes is big-endian by `toNat_wordOfBytes`. -/
theorem decodeTakesTwoBytesBigEndian : Obligations.DecodeTakesTwoBytesBigEndian :=
  ⟨fun hi lo _ => ⟨wordOfBytes hi lo, rfl, toNat_wordOfBytes hi lo⟩, fun bytes => (decodeBytes_eq_truncated_iff bytes).symm⟩

end Sys2Proof.Laws
end

section
/-! PROOFS. How each instruction with a check completes, and that it faults otherwise (60_exceptions.md R105 to R112). -/

namespace Sys2Proof.Laws
open Sys2Proof.Machine

/-! ### The instructions with a check, where it passes and where it fails -/

theorem exec00EE_of_pos (s : State) (hsp : 0 < s.sp.val) :
    exec00EE s = .next ((s.setSp ⟨s.sp.val - 1, by omega⟩).setPc s.stk[s.sp.val - 1]) := by
  obtain ⟨h0, -⟩ | ⟨_, hpop⟩ := pop_cases s
  · omega
  · rw [exec00EE, hpop]

theorem exec00EE_of_zero (s : State) (hsp : s.sp.val = 0) : exec00EE s = .fault .stackUnderflow := by
  obtain ⟨-, hpop⟩ | ⟨h, -⟩ := pop_cases s
  · rw [exec00EE, hpop]
    rfl
  · omega

theorem exec2NNN_of_lt (nnn : Addr12) (s : State) (hsp : s.sp.val < 16) :
    exec2NNN nnn s =
      .next (((s.writeStk ⟨s.sp.val, hsp⟩ (s.pc + 2)).setSp ⟨s.sp.val + 1, by omega⟩).setPc (addrWord nnn)) := by
  obtain ⟨h16, -⟩ | ⟨_, hpush⟩ := push_cases s (s.pc + 2)
  · omega
  · rw [exec2NNN, hpush]

theorem exec2NNN_of_full (nnn : Addr12) (s : State) (hsp : s.sp.val = 16) : exec2NNN nnn s = .fault .stackOverflow := by
  obtain ⟨-, hpush⟩ | ⟨h, -⟩ := push_cases s (s.pc + 2)
  · rw [exec2NNN, hpush]
    rfl
  · omega

theorem keyState_of_key {keys : Keypad} {b : Byte} {k : Fin 16} (hk : k.val = b.toNat) : keyState keys b = some keys[k] :=
  (keyState_eq_some keys b keys[k]).mpr ⟨k, hk, rfl⟩

theorem execEX9E_of_key {x : Reg} {s : State} {k : Fin 16} (hk : k.val = (s.readV x).toNat) :
    execEX9E x s = .next (s.skipIf s.keys[k]) := by
  rw [execEX9E, keyState_of_key hk]

theorem execEXA1_of_key {x : Reg} {s : State} {k : Fin 16} (hk : k.val = (s.readV x).toNat) :
    execEXA1 x s = .next (s.skipIf (!s.keys[k])) := by
  rw [execEXA1, keyState_of_key hk]

theorem execEX9E_of_gt {x : Reg} {s : State} (hx : (s.readV x).toNat > 15) :
    execEX9E x s = .fault (.keyIndexFault (s.readV x)) := by
  rw [execEX9E, (keyState_eq_none _ _).mpr hx]
  rfl

theorem execEXA1_of_gt {x : Reg} {s : State} (hx : (s.readV x).toNat > 15) :
    execEXA1 x s = .fault (.keyIndexFault (s.readV x)) := by
  rw [execEXA1, (keyState_eq_none _ _).mpr hx]
  rfl

/-- FX0A with no key pressed sets WAIT (45_keypad_timers.md R102). -/
theorem execFX0A_of_released (x : Reg) {s : State} (hkeys : ∀ k : Fin 16, s.keys[k] = false) :
    execFX0A x s = .next (s.setWait true) := by
  rw [execFX0A, (chooseKey_eq_none _ _).mpr ((pressedKeys_eq_nil _).mpr hkeys)]

/-- FX0A with a key pressed records some pressed key (R102, decision D9). -/
theorem execFX0A_of_pressed (x : Reg) {s : State} {p : Fin 16} (hp : s.keys[p] = true) :
    ∃ k : Fin 16, s.keys[k] = true ∧ execFX0A x s = .next (recordKey k x s.countKey) := by
  cases hkey : chooseKey (pressedKeys s.keys) (Config.keySelect s.keyDraws) with
  | none =>
    have hnil := (chooseKey_eq_none _ _).mp hkey
    exact absurd ((mem_pressedKeys _ _).mpr hp) (by simp [hnil])
  | some k =>
    refine ⟨k, (mem_pressedKeys _ _).mp (chooseKey_mem _ _ _ hkey), ?_⟩
    rw [execFX0A, hkey]

/-- A transfer that completes has its range in memory (20_memory.md R36). -/
theorem range_of_withRange_next {base n : Nat} {body : Result} {t : State} (h : withRange base n body = .next t) :
    n = 0 ∨ base + n ≤ 4096 := by
  obtain ⟨-, -, hfault⟩ | ⟨hrange, -⟩ := withRange_cases base n body
  · rw [hfault] at h
    cases h
  · exact hrange

/-! ### The check decides between the fault and the completion (R112) -/

/-- What the check of an instruction says of its execution: with a fault, exactly that fault, and without one a next state. -/
def Checked (check : Option Fault) (r : Result) : Prop :=
  (∃ f, check = some f ∧ r = .fault f) ∨ (check = none ∧ ∃ t, r = .next t)

theorem checked_next (t : State) : Checked none (.next t) := .inr ⟨rfl, t, rfl⟩

theorem checked_fault (f : Fault) : Checked (some f) (.fault f) := .inl ⟨f, rfl, rfl⟩

/-- A check written as a condition, with an instruction that faults under the condition and completes otherwise. -/
theorem checked_ite {c : Prop} [Decidable c] {f : Fault} {r : Result} (hfault : c → r = .fault f)
    (hnext : ¬c → ∃ t, r = .next t) : Checked (if c then some f else none) r := by
  by_cases hc : c
  · rw [if_pos hc, hfault hc]
    exact checked_fault f
  · obtain ⟨t, rfl⟩ := hnext hc
    rw [if_neg hc]
    exact checked_next t

/-- The check of a data access (20_memory.md R36, decisions D5 and D7). -/
theorem checked_withRange (base n : Nat) (t : State) :
    Checked (if n > 0 ∧ base + n - 1 > 4095 then some (.addressFault (max base 4096)) else none)
      (withRange base n (.next t)) :=
  checked_ite (fun h => withRange_of_bad _ _ _ h.1 (by omega)) fun h => ⟨t, withRange_of_ok _ _ _ (by omega)⟩

/-- A key index up to 15 is the index of a key. -/
theorem exists_key_of_not_gt {b : Byte} (h : ¬b.toNat > 15) : ∃ k : Fin 16, k.val = b.toNat :=
  ⟨⟨b.toNat, by omega⟩, rfl⟩

/-- Every instruction raises exactly the fault of its one check, and completes when the check passes. -/
theorem exec_checked (i : Instr) (s : State) : Checked (checkOf i s) (exec i s) := by
  cases i
  case op00EE => exact checked_ite (exec00EE_of_zero s) fun h => ⟨_, exec00EE_of_pos s (by omega)⟩
  case op2NNN nnn => exact checked_ite (exec2NNN_of_full nnn s) fun h => ⟨_, exec2NNN_of_lt nnn s (by omega)⟩
  case opEX9E x =>
    refine checked_ite execEX9E_of_gt fun h => ?_
    obtain ⟨k, hk⟩ := exists_key_of_not_gt h
    exact ⟨_, execEX9E_of_key hk⟩
  case opEXA1 x =>
    refine checked_ite execEXA1_of_gt fun h => ?_
    obtain ⟨k, hk⟩ := exists_key_of_not_gt h
    exact ⟨_, execEXA1_of_key hk⟩
  case opFX0A x =>
    by_cases hkeys : ∀ k : Fin 16, s.keys[k] = false
    · exact .inr ⟨rfl, _, execFX0A_of_released x hkeys⟩
    · obtain ⟨p, hp⟩ := not_forall.mp hkeys
      obtain ⟨k, -, hexec⟩ := execFX0A_of_pressed x (by simpa using hp)
      exact .inr ⟨rfl, _, hexec⟩
  case opDXYN x y n | opFX33 x | opFX55 x | opFX65 x => exact checked_withRange _ _ _
  all_goals exact checked_next _

/-- Settles O8: a result is a fault or a next state and never both, so `exec_checked` decides both equivalences. -/
theorem eachInstructionFaultsExactlyOnItsCheck : Obligations.EachInstructionFaultsExactlyOnItsCheck := by
  intro i s
  obtain ⟨f, hcheck, hexec⟩ | ⟨hcheck, t, hexec⟩ := exec_checked i s
  · simp [hcheck, hexec]
  · simp [hcheck, hexec]

end Sys2Proof.Laws
end

section
/-! PROOFS. The frame of every instruction (10_state.md R28, decision D2). -/

namespace Sys2Proof.Laws
open Sys2Proof.Machine

/-- What completing `op` keeps: each piece of state that the access matrix does not name as written. -/
structure Frame (op : Instr) (s t : State) : Prop where
  v : ∀ r, Part.v r ∉ writesOf op → t.readV r = s.readV r
  i : Part.i ∉ writesOf op → t.i = s.i
  sp : Part.sp ∉ writesOf op → t.sp = s.sp
  stk : ∀ j : Fin 16, Part.stk ∉ writesOf op ∨ j.val ≠ s.sp.val → t.stk[j] = s.stk[j]
  dt : Part.dt ∉ writesOf op → t.dt = s.dt
  st : Part.st ∉ writesOf op → t.st = s.st
  mem : Part.mem ∉ writesOf op → t.mem = s.mem
  range : ∀ base n, accessRange op s = some (base, n) → ∀ a, a < base ∨ base + n ≤ a → t.mem.read a = s.mem.read a
  fb : Part.fb ∉ writesOf op → t.fb = s.fb
  wait : Part.wait ∉ writesOf op → t.wait = s.wait
  rndDraws : Part.rndDraws ∉ writesOf op → t.rndDraws = s.rndDraws
  keyDraws : Part.keyDraws ∉ writesOf op → t.keyDraws = s.keyDraws
  keys : t.keys = s.keys
  romImg : t.romImg = s.romImg
  loaded : t.loaded = s.loaded
  font : t.font = s.font
  keyWrites : t.keyWrites = s.keyWrites
  out : t.out = ⟨s.out.fbDirty || draws op, s.out.soundOn, s.out.unknown || isUnknown op⟩

/-- A completing instruction keeps its frame. -/
theorem exec_frame {i : Instr} {s t : State} (h : exec i s = .next t) : Frame i s t := by
  cases i
  case op00EE =>
    obtain ⟨hsp, rfl⟩ := exec00EE_next h
    constructor <;> simp [writesOf, accessRange, draws, isUnknown]
  case op2NNN nnn =>
    obtain ⟨hsp, rfl⟩ := exec2NNN_next h
    constructor
    case stk =>
      rintro j (hj | hj)
      · simp [writesOf] at hj
      · simp [Vector.getElem_set_ne, Ne.symm hj]
    all_goals simp [writesOf, accessRange, draws, isUnknown]
  case opEX9E x =>
    obtain ⟨k, hk, rfl⟩ := execEX9E_next h
    constructor <;> simp [accessRange, draws, isUnknown]
  case opEXA1 x =>
    obtain ⟨k, hk, rfl⟩ := execEXA1_next h
    constructor <;> simp [accessRange, draws, isUnknown]
  case opFX0A x =>
    obtain ⟨hkeys, rfl⟩ | ⟨k, hk, rfl⟩ := execFX0A_next h
    · constructor <;> simp [writesOf, accessRange, draws, isUnknown]
    · constructor <;> simp +contextual [recordKey, writesOf, accessRange, draws, isUnknown]
  case opDXYN x y n =>
    obtain rfl := Host.Outcome.next.inj (body_of_withRange_next h)
    constructor <;> simp +contextual [writesOf, accessRange, draws, isUnknown, vf]
  case opFX33 x | opFX55 x =>
    obtain rfl := Host.Outcome.next.inj (body_of_withRange_next h)
    constructor
    case range =>
      rintro _ _ ⟨⟩ a ha
      exact Memory.read_writeBlock_outside _ _ _ _ (by simpa [State.base] using ha)
    all_goals simp [writesOf, draws, isUnknown]
  case opFX65 x =>
    obtain rfl := Host.Outcome.next.inj (body_of_withRange_next h)
    constructor
    case v =>
      intro r hr
      have hlt : ¬r ≤ x := by simpa [writesOf] using hr
      rw [State.advance_readV, State.readV_setRegs, getElem_loadRegs, if_neg hlt]
    all_goals simp [writesOf, accessRange, draws, isUnknown]
  all_goals
    obtain rfl := Host.Outcome.next.inj h
    constructor <;> simp +contextual [randomUnderMask, writesOf, accessRange, draws, isUnknown, vf]

/-- Settles O9: its clauses are the fields of `Frame`. -/
theorem eachInstructionKeepsWhatItDoesNotName : Obligations.EachInstructionKeepsWhatItDoesNotName := by
  intro i s t h
  obtain ⟨v, i, sp, stk, dt, st, mem, range, fb, wait, rndDraws, keyDraws, keys, romImg, loaded, font, keyWrites, out⟩ :=
    exec_frame h
  exact ⟨v, i, sp, stk, dt, st, mem, range, fb, wait, rndDraws, keyDraws, keys, romImg, loaded, font, keyWrites, out⟩

/-! ### The inputs of an instruction (40_cycle.md R68) -/

/-- A transfer that completes would complete with any body. -/
theorem withRange_next_swap {base n : Nat} {body : Result} {t : State} (h : withRange base n body = .next t) (u : State) :
    withRange base n (.next u) = .next u :=
  withRange_of_ok _ _ _ (range_of_withRange_next h)

/-- Of the inputs, FX0A does not see the draw counts of CXNN. -/
theorem execFX0A_rndDraws {x : Reg} {s t : State} (h : execFX0A x s = .next t) (n : Nat) :
    execFX0A x { s with rndDraws := n } = .next { t with rndDraws := n } := by
  unfold execFX0A at h ⊢
  cases hkey : chooseKey (pressedKeys s.keys) (Config.keySelect s.keyDraws) with
  | none =>
    rw [hkey] at h
    obtain rfl := Host.Outcome.next.inj h
    rfl
  | some k =>
    rw [hkey] at h
    obtain rfl := Host.Outcome.next.inj h
    rfl

/-- Settles O10: a completing instruction completes on other inputs too, and where it does not read them its next state carries
them along. -/
theorem inputsReachOnlyTheirInstructions : Obligations.InputsReachOnlyTheirInstructions := by
  intro i s t h
  cases i
  case op00EE =>
    obtain ⟨hsp, rfl⟩ := exec00EE_next h
    exact ⟨fun _ k => exec00EE_of_pos { s with keys := k } hsp, fun _ n => exec00EE_of_pos { s with rndDraws := n } hsp,
      fun _ n => exec00EE_of_pos { s with keyDraws := n } hsp⟩
  case op2NNN nnn =>
    obtain ⟨hsp, rfl⟩ := exec2NNN_next h
    exact ⟨fun _ k => exec2NNN_of_lt nnn { s with keys := k } hsp,
      fun _ n => exec2NNN_of_lt nnn { s with rndDraws := n } hsp,
      fun _ n => exec2NNN_of_lt nnn { s with keyDraws := n } hsp⟩
  case opEX9E x =>
    obtain ⟨k, hk, rfl⟩ := execEX9E_next h
    exact ⟨nofun, fun _ n => execEX9E_of_key (s := { s with rndDraws := n }) hk,
      fun _ n => execEX9E_of_key (s := { s with keyDraws := n }) hk⟩
  case opEXA1 x =>
    obtain ⟨k, hk, rfl⟩ := execEXA1_next h
    exact ⟨nofun, fun _ n => execEXA1_of_key (s := { s with rndDraws := n }) hk,
      fun _ n => execEXA1_of_key (s := { s with keyDraws := n }) hk⟩
  case opFX0A x =>
    exact ⟨nofun, fun _ => execFX0A_rndDraws h, fun hne => absurd rfl (hne x)⟩
  case opCXNN x nn =>
    obtain rfl := Host.Outcome.next.inj h
    exact ⟨fun _ _ => rfl, fun hne => absurd rfl (hne x nn), fun _ _ => rfl⟩
  case opDXYN x y n | opFX33 x | opFX55 x | opFX65 x =>
    obtain rfl := Host.Outcome.next.inj (body_of_withRange_next h)
    exact ⟨fun _ _ => withRange_next_swap h _, fun _ _ => withRange_next_swap h _, fun _ _ => withRange_next_swap h _⟩
  all_goals
    obtain rfl := Host.Outcome.next.inj h
    exact ⟨fun _ _ => rfl, fun _ _ => rfl, fun _ _ => rfl⟩

end Sys2Proof.Laws
end

section
/-! PROOFS. A step around the execute phase (40_cycle.md R57 to R66), and the host's operations between steps. -/

namespace Sys2Proof.Laws
open Sys2Proof.Machine

/-! ### The fields after the end of a step (R64, R65) -/

@[simp] theorem endStep_v (s : State) : s.endStep.v = s.v := rfl
@[simp] theorem endStep_i (s : State) : s.endStep.i = s.i := rfl
@[simp] theorem endStep_pc (s : State) : s.endStep.pc = s.pc := rfl
@[simp] theorem endStep_sp (s : State) : s.endStep.sp = s.sp := rfl
@[simp] theorem endStep_stk (s : State) : s.endStep.stk = s.stk := rfl
@[simp] theorem endStep_mem (s : State) : s.endStep.mem = s.mem := rfl
@[simp] theorem endStep_fb (s : State) : s.endStep.fb = s.fb := rfl
@[simp] theorem endStep_keys (s : State) : s.endStep.keys = s.keys := rfl
@[simp] theorem endStep_wait (s : State) : s.endStep.wait = s.wait := rfl
@[simp] theorem endStep_romImg (s : State) : s.endStep.romImg = s.romImg := rfl
@[simp] theorem endStep_loaded (s : State) : s.endStep.loaded = s.loaded := rfl
@[simp] theorem endStep_font (s : State) : s.endStep.font = s.font := rfl
@[simp] theorem endStep_keyWrites (s : State) : s.endStep.keyWrites = s.keyWrites := rfl
@[simp] theorem endStep_rndDraws (s : State) : s.endStep.rndDraws = s.rndDraws := rfl
@[simp] theorem endStep_keyDraws (s : State) : s.endStep.keyDraws = s.keyDraws := rfl
@[simp] theorem endStep_readV (s : State) (q : Reg) : s.endStep.readV q = s.readV q := rfl
@[simp] theorem endStep_dt (s : State) : s.endStep.dt = tickTimer s.dt := rfl
@[simp] theorem endStep_st (s : State) : s.endStep.st = tickTimer s.st := rfl
@[simp] theorem endStep_out (s : State) :
    s.endStep.out = ⟨s.out.fbDirty, decide ((tickTimer s.st).toNat > 0), s.out.unknown⟩ := rfl

/-! ### The instruction a step executes -/

/-- A step of a core that executes `i`, when the execute phase completes. -/
theorem step_of_exec_next {s u : State} {i : Instr} (hl : s.loaded = true) (hp : s.pc.toNat ≤ 4094)
    (hi : decodeWord (s.mem.read s.pc.toNat ++ s.mem.read (s.pc.toNat + 1)) = i) (h : exec i s.beginStep = .next u) :
    step s = .next u.endStep := by
  rw [step_of_loaded s hl hp, wordOfBytes, hi, h]
  rfl

/-- A step of a core that executes `i`, when the execute phase faults (R67). -/
theorem step_of_exec_fault {s : State} {i : Instr} {f : Fault} (hl : s.loaded = true) (hp : s.pc.toNat ≤ 4094)
    (hi : decodeWord (s.mem.read s.pc.toNat ++ s.mem.read (s.pc.toNat + 1)) = i) (h : exec i s.beginStep = .fault f) :
    step s = .fault f := by
  rw [step_of_loaded s hl hp, wordOfBytes, hi, h]
  rfl

/-- A step that answers a next state executed the instruction at PC, which completed. -/
theorem exec_next_of_step {s t : State} {i : Instr} (h : step s = .next t)
    (hi : decodeWord (s.mem.read s.pc.toNat ++ s.mem.read (s.pc.toNat + 1)) = i) :
    s.loaded = true ∧ s.pc.toNat ≤ 4094 ∧ ∃ u, exec i s.beginStep = .next u ∧ t = u.endStep := by
  obtain ⟨hl, hp, u, hexec, rfl⟩ := step_next s t h
  rw [wordOfBytes, hi] at hexec
  exact ⟨hl, hp, u, hexec, rfl⟩

theorem tickTimer_eq (b : Byte) : tickTimer b = BitVec.ofNat 8 (b.toNat - 1) := by
  apply BitVec.eq_of_toNat_eq
  have := b.isLt
  rw [toNat_tickTimer, BitVec.toNat_ofNat, Nat.mod_eq_of_lt (by omega)]

/-- Settles O1: the step's beginning is the keypad write and the fresh flags, and its end the tick. -/
theorem stepRunsDecodedInstruction : Obligations.StepRunsDecodedInstruction := by
  intro s i hl hp hi s₀
  have hbegin : s.beginStep = s₀ := beginStep_eq s
  rw [← hbegin]
  refine ⟨fun u hexec => ?_, fun f => step_of_exec_fault hl hp hi⟩
  have hsound : (tickTimer u.st).toNat > 0 ↔ u.st.toNat > 1 := by rw [toNat_tickTimer]; omega
  rw [step_of_exec_next hl hp hi hexec, endStep_eq]
  rw [decide_eq_decide.mpr hsound, tickTimer_eq, tickTimer_eq]

/-- Settles O3: every operation looks at LOADED first. -/
theorem unloadedCoreIsRefused : Obligations.UnloadedCoreIsRefused := fun s hl =>
  ⟨if_neg (by simp [hl]), (readFramebuffer_eq_none s).mpr hl, (readTimers_eq_none s).mpr hl,
    fun keys => (writeKeys_eq_none s keys).mpr hl⟩

/-! ### The outcome flags (R65) -/

theorem draws_iff (i : Instr) : draws i = true ↔ i = .op00E0 ∨ ∃ x y n, i = .opDXYN x y n := by
  cases i <;> simp [draws]

theorem isUnknown_iff (i : Instr) : isUnknown i = true ↔ ∃ w, i = .unknown w := by
  cases i <;> simp [isUnknown]

/-- The outcome of a step that executed `i`. -/
theorem step_out {s t : State} {i : Instr} (h : step s = .next t)
    (hi : decodeWord (s.mem.read s.pc.toNat ++ s.mem.read (s.pc.toNat + 1)) = i) :
    t.out = ⟨draws i, decide (t.st.toNat > 0), isUnknown i⟩ := by
  obtain ⟨-, -, u, hexec, rfl⟩ := exec_next_of_step h hi
  simp [(exec_frame hexec).out]

/-- Settles O6: the flags are the outcome of the step, and each says which instruction it was. -/
theorem outcomeFlagsReportTheStep : Obligations.OutcomeFlagsReportTheStep := by
  intro s t i h hi
  rw [step_out h hi]
  exact ⟨draws_iff i, isUnknown_iff i, decide_eq_true_iff⟩

/-! ### An unknown word (R66) -/

/-- Settles O7: `unknown` executes as the report and the PC update, between the start and the end of the step. -/
theorem unknownWordOnlyAdvancesAndTicks : Obligations.UnknownWordOnlyAdvancesAndTicks := by
  intro s w hw
  refine ⟨⟨_, rfl, rfl⟩, ?_⟩
  rintro hl hp rfl
  have hi := (decodeWord_eq_unknown_iff _).mpr hw
  refine ⟨_, step_of_exec_next hl hp hi rfl, rfl, ?_, ?_, ?_, ?_, ?_⟩
  · simp
  · simpa using (toNat_pc_add_of_le hp).1
  · simp [toNat_tickTimer]
  · simp [toNat_tickTimer]
  · rw [beginStep_eq]
    rfl

/-! ### The host's keypad write and reads (60_exceptions.md R118 to R120) -/

theorem nextKeys_of_nil {s : State} (h : s.keyWrites = []) : s.nextKeys = s.keys := by
  rw [State.nextKeys, h]
  rfl

theorem nextKeys_of_cons {s : State} {k : Keypad} {rest : List Keypad} (h : s.keyWrites = k :: rest) : s.nextKeys = k := by
  rw [State.nextKeys, h]
  rfl

/-- Settles O45: the next step's snapshot is `nextKeys`. -/
theorem hostWritesKeysAndReadsDevices : Obligations.HostWritesKeysAndReadsDevices := by
  intro s keys hl
  refine ⟨⟨_, (writeKeys_eq_some s _ keys).mpr ⟨hl, rfl⟩, rfl, fun hnil => ?_⟩, fun k rest hcons => ⟨?_, ?_⟩,
    if_pos hl, if_pos hl⟩
  · rw [beginStep_keys, nextKeys_of_nil (s := { s with keys := keys }) hnil]
  · rw [beginStep_keys, nextKeys_of_cons hcons]
  · rw [beginStep_keyWrites, hcons]
    rfl

/-! ### Keys, timers and the key wait, one step (45_keypad_timers.md) -/

/-- Settles O40: the key test is on the key of the index V[X], and faults when there is none. -/
theorem keySkipsTestTheSnapshot : Obligations.KeySkipsTestTheSnapshot := by
  intro x s
  refine ⟨decodeWord_encode (i := .opEX9E x) rfl, decodeWord_encode (i := .opEXA1 x) rfl,
    fun hx => ⟨execEX9E_of_gt hx, execEXA1_of_gt hx⟩,
    fun k hk => ⟨⟨_, execEX9E_of_key hk.symm, rfl, rfl⟩, ⟨_, execEXA1_of_key hk.symm, rfl, ?_⟩⟩⟩
  cases hkey : s.keys[k]
  case false => simp
  case true => simp

/-- Settles O41: each is one write, of V[X] or of its timer. -/
theorem timerInstructionsMoveTheirTimer : Obligations.TimerInstructionsMoveTheirTimer := fun x _ =>
  ⟨decodeWord_encode (i := .opFX07 x) rfl, decodeWord_encode (i := .opFX15 x) rfl, decodeWord_encode (i := .opFX18 x) rfl,
    exec_writeV rfl, ⟨_, rfl, rfl⟩, ⟨_, rfl, rfl⟩⟩

/-- Settles O42: the execute phase reads DT, and the tick comes after it. -/
theorem readTimerStepGivesValueBeforeTheTick : Obligations.ReadTimerStepGivesValueBeforeTheTick := by
  intro s x hl hp hi
  refine ⟨_, step_of_exec_next hl hp hi rfl, ?_, ?_, ?_, fun r hr => ?_⟩
  · simp
  · simp [toNat_tickTimer]
  · simpa using (toNat_pc_add_of_le hp).1
  · simp [hr]

/-- Settles O43: with a key pressed the choice is one of the pressed keys. -/
theorem keyWaitHoldsOrRecordsAPressedKey : Obligations.KeyWaitHoldsOrRecordsAPressedKey := by
  intro x s
  refine ⟨decodeWord_encode (i := .opFX0A x) rfl, fun hkeys => ⟨_, execFX0A_of_released x hkeys, rfl⟩, fun p hp => ?_⟩
  obtain ⟨k, hk, hexec⟩ := execFX0A_of_pressed x hp
  refine ⟨_, k, hexec, hk, ?_, fun r hr => ?_, rfl⟩
  · have := k.isLt
    simp [recordKey]
    omega
  · simp [recordKey, hr]

end Sys2Proof.Laws
end

section
/-! PROOFS. The state after a load (70_reset_and_hazards.md R124, R126, R130). -/

namespace Sys2Proof.Laws
open Sys2Proof.Machine

theorem load_of_le {s : State} {rom : List Byte} (h : rom.length ≤ 3584) : s.load rom = ⟨s.loadedWith rom, none⟩ := by
  obtain ⟨hgt, -⟩ | ⟨_, hload⟩ := load_cases s rom
  · omega
  · exact hload

/-- Settles O53: memory is the font and the image over zeros, and every other register is written out in `loadedWith`. -/
theorem loadPlacesFontAndProgram : Obligations.LoadPlacesFontAndProgram := by
  intro s rom hlen t
  have ht : t = s.loadedWith rom := congrArg InterfaceResult.state (load_of_le hlen)
  rw [load_of_le hlen, ht]
  refine ⟨rfl, fun a _ => ?_, fun r => Vector.getElem_replicate _, rfl, rfl, rfl, fun j => Vector.getElem_replicate _, rfl, rfl,
    Framebuffer.pixel_clear, fun k => Vector.getElem_replicate _, rfl, rfl, rfl, rfl⟩
  rw [State.loadedWith, read_loadedMemory]
  by_cases hfont : a < 80
  · rw [dif_neg (by omega), dif_pos hfont, dif_pos hfont]
  · simp only [hfont]
    rfl

/-- A byte of the image area after a load, as the image gives it or 0. -/
theorem read_loadedMemory_image (font : Vector Byte 80) (rom : List Byte) (k : Nat) :
    (loadedMemory font rom).read (512 + k) = rom.getD k 0 := by
  rw [read_loadedMemory]
  by_cases hk : k < rom.length
  · simp [hk]
  · rw [dif_neg (by omega), dif_neg (by omega), List.getD_eq_default _ _ (by omega)]

/-- Settles O56: the fetch at 0x200 reads the first two bytes of the image area. -/
theorem firstFetchReadsTheImage : Obligations.FirstFetchReadsTheImage := by
  intro s rom hlen
  rw [load_of_le hlen]
  refine ⟨rfl, (fetch_of_le (s.loadedWith rom) (show 512 ≤ 4094 by omega)).trans ?_⟩
  exact congrArg Except.ok (congrArg₂ wordOfBytes (read_loadedMemory_image s.font rom 0) (read_loadedMemory_image s.font rom 1))

/-- The memory of an empty load with the default font lists nothing (notes/assumptions/8.md). -/
theorem loadedMemory_default_nil : loadedMemory defaultFont [] = [] := by
  refine Memory.eq_of_read_eq _ _ (wf_loadedMemory _ _ (by simp)) Memory.wf_nil fun a => ?_
  rw [read_loadedMemory, dif_neg (by simp)]
  rfl

theorem loadedWith_nil {s : State} (hfont : s.font = defaultFont) : s.loadedWith [] =
    { State.reset with keyWrites := s.keyWrites, rndDraws := s.rndDraws, keyDraws := s.keyDraws } := by
  rw [State.loadedWith, hfont, loadedMemory_default_nil]
  rfl

/-- Settles O57: the memory of such a load is the empty list, which is the reset state's. -/
theorem resetIsTheLoadOfTheEmptyImage : Obligations.ResetIsTheLoadOfTheEmptyImage := by
  intro s hfont
  rw [load_of_le (by simp)]
  exact ⟨rfl, loadedWith_nil hfont⟩

/-! ### The invariant after the host's operations -/

theorem inv_loadedWith (s : State) {rom : List Byte} (hlen : rom.length ≤ 3584) : (s.loadedWith rom).Inv where
  memory := wf_loadedMemory _ _ hlen
  image := hlen
  pc := by simp [State.loadedWith]
  stack := nofun
  waiting := nofun
  sound := rfl

/-- Settles O11: the reset state is the load of the empty image into itself. -/
theorem resetMeetsTheInvariant : Obligations.ResetMeetsTheInvariant := by
  have h := inv_loadedWith State.reset (rom := []) (by simp)
  rwa [loadedWith_nil rfl] at h

/-- A load keeps the invariant, whether it succeeds or not. -/
theorem inv_load {s : State} (hinv : s.Inv) (rom : List Byte) : (s.load rom).state.Inv := by
  obtain ⟨-, hload⟩ | ⟨hlen, hload⟩ := load_cases s rom
  · rwa [hload]
  · rw [hload]
    exact inv_loadedWith s hlen

/-- The keypad register is no part of the invariant. -/
theorem inv_setKeys {s : State} (hinv : s.Inv) (keys : Keypad) : ({ s with keys := keys } : State).Inv := by
  obtain ⟨memory, image, pc, stack, waiting, sound⟩ := hinv
  exact ⟨memory, image, pc, stack, waiting, sound⟩

/-- Settles O13: a successful load leaves `loadedWith`, a failed one and a failed `reset()` the state as it was. -/
theorem hostOperationsKeepTheInvariant : Obligations.HostOperationsKeepTheInvariant := by
  intro s
  refine ⟨fun rom herr => ?_, fun hinv => inv_load hinv, fun hinv => ?_, fun hinv k t ht => ?_⟩
  · obtain ⟨-, hload⟩ | ⟨hlen, hload⟩ := load_cases s rom
    · rw [hload] at herr
      cases herr
    · rw [hload]
      exact inv_loadedWith s hlen
  · obtain ⟨-, hreset⟩ | ⟨-, hreset⟩ := hostReset_cases s
    · rwa [hreset]
    · rw [hreset]
      exact inv_load hinv _
  · obtain ⟨-, rfl⟩ := (writeKeys_eq_some s t k).mp ht
    exact inv_setKeys hinv k

end Sys2Proof.Laws
end

section
/-! PROOFS. The invariant of a machine that runs: every step keeps it (10_state.md R15 to R23). -/

namespace Sys2Proof.Laws
open Sys2Proof.Machine

/-! ### Memory stays canonical -/

/-- FX33 and FX55 store inside 0 .. 4095, and no other instruction writes memory (20_memory.md R36). -/
theorem exec_keeps_wf {i : Instr} {s t : State} (h : exec i s = .next t) (hwf : s.mem.wf) : t.mem.wf := by
  cases i
  case opFX33 x | opFX55 x =>
    have hrange := range_of_withRange_next h
    obtain rfl := Host.Outcome.next.inj (body_of_withRange_next h)
    exact Memory.wf_writeBlock _ _ _ hwf (by simp; omega)
  all_goals
    rw [(exec_frame h).mem (by simp [writesOf])]
    exact hwf

/-! ### PC stays at most 4350 -/

theorem toNat_skipPc_le {s : State} (hpc : s.pc.toNat ≤ 4094) (p : Prop) [Decidable p] : (skipPc s p).toNat ≤ 4350 := by
  obtain ⟨h2, h4⟩ := toNat_pc_add_of_le hpc
  unfold skipPc
  split <;> omega

theorem toNat_setWidth_addr_le (nnn : Addr12) : (nnn.setWidth 16).toNat ≤ 4350 := by
  have h := toNat_addrWord nnn
  have hlt := nnn.isLt
  unfold addrWord at h
  omega

/-- The largest `next_pc` is that of BNNN, 4095 + 255 (R15, R63). -/
theorem exec_pc_le {i : Instr} {s t : State} (h : exec i s = .next t) (hpc : s.pc.toNat ≤ 4094)
    (hstack : ∀ j : Fin 16, j.val < s.sp.val → s.stk[j].toNat ≤ 4096) : t.pc.toNat ≤ 4350 := by
  have hadvance : (s.pc + 2).toNat ≤ 4350 := by have := (toNat_pc_add_of_le hpc).1; omega
  rw [exec_pc h]
  cases i
  case op00EE =>
    obtain ⟨hsp, -⟩ := exec00EE_next h
    have htop := hstack ⟨s.sp.val - 1, by omega⟩ (by simp; omega)
    exact htop.trans (by omega)
  case op1NNN nnn | op2NNN nnn => exact toNat_setWidth_addr_le nnn
  case opBNNN nnn =>
    have hnnn := nnn.isLt
    have hv0 := (s.readV 0).isLt
    simp only [nextPcOf, BitVec.toNat_ofNat]
    omega
  case op3XNN | op4XNN | op5XY0 | op9XY0 | opEX9E | opEXA1 => exact toNat_skipPc_le hpc _
  case opFX0A x =>
    simp only [nextPcOf]
    split <;> omega
  all_goals exact hadvance

/-! ### Stack entries stay at most 4096 -/

/-- A call pushes PC + 2, at most 4096 after a fetch; no other instruction writes an entry or makes one live (R69, R71). -/
theorem exec_keeps_stack {i : Instr} {s t : State} (h : exec i s = .next t) (hpc : s.pc.toNat ≤ 4094)
    (hstack : ∀ j : Fin 16, j.val < s.sp.val → s.stk[j].toNat ≤ 4096) :
    ∀ j : Fin 16, j.val < t.sp.val → t.stk[j].toNat ≤ 4096 := by
  intro j hj
  cases i
  case op00EE =>
    obtain ⟨hsp, rfl⟩ := exec00EE_next h
    exact hstack j (by simp at hj; omega)
  case op2NNN nnn =>
    obtain ⟨hsp, rfl⟩ := exec2NNN_next h
    by_cases hjsp : j.val = s.sp.val
    · have := (toNat_pc_add_of_le hpc).1
      simp [hjsp]
      omega
    · rw [(exec_frame h).stk j (.inr hjsp)]
      exact hstack j (by simp at hj; omega)
  all_goals
    have hframe := exec_frame h
    rw [hframe.stk j (.inl (by simp [writesOf]))]
    rw [hframe.sp (by simp [writesOf])] at hj
    exact hstack j hj

/-! ### WAIT is 1 only at an FX0A that waits (decision D11) -/

theorem wait_not_mem_writesOf {i : Instr} (hne : ∀ x, i ≠ .opFX0A x) : Part.wait ∉ writesOf i := by
  cases i
  case opFX0A x => exact absurd rfl (hne x)
  all_goals simp [writesOf]

theorem execFX0A_wait {x : Reg} {s t : State} (h : execFX0A x s = .next t) :
    t.wait = true ↔ ∀ k : Fin 16, s.keys[k] = false := by
  obtain ⟨hkeys, rfl⟩ | ⟨k, hk, rfl⟩ := execFX0A_next h
  · exact iff_of_true rfl hkeys
  · exact iff_of_false Bool.noConfusion fun hkeys => by simp [hkeys k] at hk

/-- Settles O14: an FX0A writes WAIT; any other instruction keeps it, and at one the invariant has it 0. -/
theorem waitMarksANonCompletingKeyWait : Obligations.WaitMarksANonCompletingKeyWait := by
  intro s t i hinv h hi
  obtain ⟨-, -, u, hexec, rfl⟩ := exec_next_of_step h hi
  by_cases hkey : ∃ x, i = .opFX0A x
  · obtain ⟨x, rfl⟩ := hkey
    rw [endStep_wait, execFX0A_wait hexec, beginStep_keys, State.nextKeys]
    exact (and_iff_right ⟨x, rfl⟩).symm
  · have hne : ∀ x, i ≠ .opFX0A x := not_exists.mp hkey
    rw [endStep_wait, (exec_frame hexec).wait (wait_not_mem_writesOf hne), beginStep_wait]
    refine iff_of_false (fun hwait => ?_) fun hw => hkey hw.1
    obtain ⟨-, x, hx⟩ := hinv.waiting hwait
    exact hne x (hi.symm.trans hx)

/-- A waiting FX0A leaves PC and memory, so that PC addresses it still (R23, R102). -/
theorem execFX0A_waiting {x : Reg} {s t : State} (h : execFX0A x s = .next t) (hwait : t.wait = true) :
    t.pc = s.pc ∧ t.mem = s.mem := by
  obtain ⟨-, rfl⟩ | ⟨k, -, rfl⟩ := execFX0A_next h
  · exact ⟨rfl, rfl⟩
  · cases hwait

/-- Settles O12: each clause from what the execute phase can do to it; the start of the step changes none of them, the end of the
step only `sound_on`. -/
theorem everyStepKeepsTheInvariant : Obligations.EveryStepKeepsTheInvariant := by
  intro s t hinv h
  obtain ⟨-, hpc, u, hexec, rfl⟩ := exec_next_of_step h rfl
  have hpc' : s.beginStep.pc.toNat ≤ 4094 := by simpa using hpc
  have hstack : ∀ j : Fin 16, j.val < s.beginStep.sp.val → s.beginStep.stk[j].toNat ≤ 4096 := by simpa using hinv.stack
  constructor
  case memory => exact (exec_keeps_wf hexec (by simpa using hinv.memory) :)
  case image =>
    rw [endStep_romImg, (exec_frame hexec).romImg, beginStep_romImg]
    exact hinv.image
  case pc => exact (exec_pc_le hexec hpc' hstack :)
  case stack => exact (exec_keeps_stack hexec hpc' hstack :)
  case waiting =>
    intro hwait
    obtain ⟨⟨x, hx⟩, -⟩ := (waitMarksANonCompletingKeyWait s u.endStep _ hinv h rfl).mp hwait
    rw [hx] at hexec
    obtain ⟨hpcEq, hmemEq⟩ := execFX0A_waiting hexec hwait
    rw [endStep_pc, endStep_mem, hpcEq, hmemEq, beginStep_pc, beginStep_mem]
    exact ⟨hpc, x, hx⟩
  case sound => rfl

end Sys2Proof.Laws
end

section
/-! PROOFS. Subroutines (41_control_flow.md R69, R71), and the rest of the register operations (42_alu.md R85 to R88). -/

namespace Sys2Proof.Laws
open Sys2Proof.Machine

/-! ### Call and return -/

/-- Settles O15: the top entry is the one below SP. -/
theorem returnPopsIntoPc : Obligations.ReturnPopsIntoPc := by
  refine fun s => ⟨rfl, exec00EE_of_zero s, fun j hj => ?_⟩
  have htop : s.stk[s.sp.val - 1] = s.stk[j] := by simp [hj]
  refine ⟨_, exec00EE_of_pos s (by omega), htop, ?_, rfl⟩
  simp [hj]

/-- Settles O17: the entry written is the one at SP. -/
theorem callPushesAddressAfterIt : Obligations.CallPushesAddressAfterIt := by
  refine fun nnn s => ⟨decodeWord_encode (i := .op2NNN nnn) rfl, exec2NNN_of_full nnn s, fun j hj => ?_⟩
  refine ⟨_, exec2NNN_of_lt nnn s (by omega), toNat_addrWord nnn, ?_, ?_, fun k hk => ?_, rfl⟩
  · simp [hj]
  · simp [hj]
  · have hne : s.sp.val ≠ k.val := fun h => hk (Fin.ext (h.symm.trans hj))
    simp [hne]

/-- Settles O20: the return finds on top of the stack what the call pushed. -/
theorem callThenReturnResumesAfterTheCall : Obligations.CallThenReturnResumesAfterTheCall := by
  intro nnn s hsp
  refine ⟨_, _, exec2NNN_of_lt nnn s hsp,
    exec00EE_of_pos (((s.writeStk ⟨s.sp.val, hsp⟩ (s.pc + 2)).setSp ⟨s.sp.val + 1, by omega⟩).setPc (addrWord nnn))
      (Nat.succ_pos _), ?_, fun k hk => ?_⟩
  · simp [State.setPc, State.setSp, State.writeStk]
  · simp [Vector.getElem_set_ne, Ne.symm hk]

/-! ### Reverse subtraction, shifts, random -/

/-- Settles O28: 8XY7 is 8XY5 with the operands exchanged. -/
theorem reverseSubtractSetsNoBorrow : Obligations.ReverseSubtractSetsNoBorrow := by
  intro x y s
  obtain ⟨t, hexec, hframe, hflag, hx, hrest⟩ := exec_writeV_vf (i := .op8XY7 x y) (s := s) rfl
  refine ⟨decodeWord_encode (i := .op8XY7 x y) rfl, t, hexec, hframe, ?_, fun hne => ?_, hrest⟩
  · rw [hflag, toNat_noBorrowFlag]
  · rw [hx hne, toInt_subByte]

/-- An instruction that writes the flag and then a result into V[Y] and V[X] completes with the result in both, and with the flag in
VF where the result did not replace it; it changes those registers and PC alone (10_state.md R13, decision D3). -/
theorem exec_vf_writeV_writeV {i : Instr} {s : State} {x y : Reg} {b flag : Byte}
    (hexec : exec i s = .next (((s.writeV vf flag).writeV y b).writeV x b).advance) :
    ∃ t, exec i s = .next t ∧ t = { s with v := t.v, pc := s.pc + 2 } ∧
      t.readV x = b ∧ t.readV y = b ∧ (x ≠ 15 → y ≠ 15 → t.readV 15 = flag) ∧
      ∀ r, r ≠ x → r ≠ y → r ≠ 15 → t.readV r = s.readV r := by
  refine ⟨_, hexec, rfl, ?_, ?_, fun hx hy => ?_, fun r hrx hry hrf => ?_⟩
  · simp
  · simp
  · simp [vf, Ne.symm hx, Ne.symm hy]
  · simp [vf, hrx, hry, hrf]

/-- Settles O29: both are the flag and then the shifted V[Y] into V[Y] and V[X]. -/
theorem shiftsMoveVyIntoBothRegisters : Obligations.ShiftsMoveVyIntoBothRegisters := by
  intro x y s
  obtain ⟨t, hright, hrightFrame, hrx, hry, hrf, hrightRest⟩ := exec_vf_writeV_writeV (i := .op8XY6 x y) (s := s) rfl
  obtain ⟨u, hleft, hleftFrame, hlx, hly, hlf, hleftRest⟩ := exec_vf_writeV_writeV (i := .op8XYE x y) (s := s) rfl
  refine ⟨decodeWord_encode (i := .op8XY6 x y) rfl, decodeWord_encode (i := .op8XYE x y) rfl,
    ⟨t, hright, hrightFrame, ?_, ?_, fun hx hy => ?_, hrightRest⟩,
    ⟨u, hleft, hleftFrame, ?_, ?_, fun hx hy => ?_, hleftRest⟩⟩
  · rw [hrx, toNat_shiftRightByte]
  · rw [hry, toNat_shiftRightByte]
  · rw [hrf hx hy, toNat_shiftedOutRight]
  · rw [hlx, toNat_shiftLeftByte]
  · rw [hly, toNat_shiftLeftByte]
  · rw [hlf hx hy, toNat_shiftedOutLeft]

/-- Settles O30: whatever byte the draw is, the mask bounds it. -/
theorem randomByteIsDrawnUnderMask : Obligations.RandomByteIsDrawnUnderMask := by
  intro x nn s
  have hx : (randomUnderMask (Config.rnd s.rndDraws) x nn s.countRnd).readV x = Config.rnd s.rndDraws &&& nn := by
    simp [randomUnderMask]
  refine ⟨decodeWord_encode (i := .opCXNN x nn) rfl, _, rfl, rfl, hx, ?_, fun k hk => ?_, fun r hr => ?_⟩
  · rw [hx, BitVec.toNat_and]
    exact Nat.and_le_right
  · rw [hx, BitVec.getLsbD_and, hk, Bool.and_false]
  · simp [randomUnderMask, hr]

end Sys2Proof.Laws
end

section
/-! PROOFS. Memory transfers (43_index_memory.md R93 to R95, 20_memory.md R33 to R42). -/

namespace Sys2Proof.Laws
open Sys2Proof.Machine

/-! ### What a transfer does where its range is in memory -/

/-- The fault of a transfer at I (R36, decisions D5 and D7). -/
theorem withRange_base_of_bad {s : State} {n : Nat} {body : Result} (hn : n > 0) (h : s.i.toNat + n > 4096) :
    withRange s.base n body = .fault (.addressFault (max s.i.toNat 4096)) :=
  withRange_of_bad _ _ _ hn h

/-- FX33 with its range in memory (R93). -/
theorem execFX33_of_le (x : Reg) {s : State} (h : s.i.toNat + 3 ≤ 4096) :
    execFX33 x s = .next (s.setMem (s.mem.writeBlock s.i.toNat (decimalDigits (s.readV x)))).advance :=
  withRange_of_ok _ _ _ (.inr h)

/-- FX55 with its range in memory (R94). -/
theorem execFX55_of_le (x : Reg) {s : State} (h : s.i.toNat + (x.val + 1) ≤ 4096) :
    execFX55 x s = .next (s.setMem (s.mem.writeBlock s.i.toNat (s.regsUpTo x))).advance :=
  withRange_of_ok _ _ _ (.inr h)

/-- FX65 with its range in memory (R95). -/
theorem execFX65_of_le (x : Reg) {s : State} (h : s.i.toNat + (x.val + 1) ≤ 4096) :
    execFX65 x s = .next (s.setRegs (s.loadRegs x s.i.toNat)).advance :=
  withRange_of_ok _ _ _ (.inr h)

theorem range_of_execFX55 {x : Reg} {s t : State} (h : execFX55 x s = .next t) : s.i.toNat + (x.val + 1) ≤ 4096 :=
  (range_of_withRange_next h).resolve_left (Nat.succ_ne_zero _)

/-- A completed FX55 has left V[r] at I + r for each r up to X. -/
theorem read_of_execFX55 {x : Reg} {s t : State} (h : execFX55 x s = .next t) {r : Reg} (hr : r ≤ x) :
    t.mem.read (s.i.toNat + r.val) = s.readV r := by
  have hlt : r.val < (s.regsUpTo x).length := by simpa [Nat.lt_succ_iff] using hr
  obtain rfl := Host.Outcome.next.inj (body_of_withRange_next h)
  exact (Memory.read_writeBlock_inside _ _ _ _ hlt).trans (getElem_regsUpTo s x r.val hlt r.isLt)

/-- A completed FX65 has loaded V[r] from I + r for each r up to X, and no other register. -/
theorem readV_of_execFX65 {x : Reg} {s t : State} (h : execFX65 x s = .next t) (r : Reg) :
    t.readV r = if r ≤ x then s.mem.read (s.i.toNat + r.val) else s.readV r := by
  obtain rfl := Host.Outcome.next.inj (body_of_withRange_next h)
  exact getElem_loadRegs s x r s.base

/-! ### The digits of a byte -/

theorem toNat_decimalDigits (b : Byte) :
    (decimalDigits b).map BitVec.toNat = [b.toNat / 100, b.toNat / 10 % 10, b.toNat % 10] := by
  have := b.isLt
  simp only [decimalDigits, List.map_cons, List.map_nil, BitVec.toNat_ofNat, List.cons.injEq, and_true]
  omega

/-- The byte at I + k after FX33 is digit k. -/
theorem toNat_read_decimalDigits (m : Memory) (a k : Nat) (b : Byte) (hk : k < 3) :
    ((m.writeBlock a (decimalDigits b)).read (a + k)).toNat = [b.toNat / 100, b.toNat / 10 % 10, b.toNat % 10][k] := by
  rw [Memory.read_writeBlock_inside _ _ _ _ hk]
  simp only [← toNat_decimalDigits, List.getElem_map]
  rfl

/-- Settles O32: the store is the run of the three digits at I. -/
theorem storeDecimalDigits : Obligations.StoreDecimalDigits := by
  intro x s
  refine ⟨decodeWord_encode (i := .opFX33 x) rfl,
    fun hbad => withRange_base_of_bad (by omega) (by omega), fun hok => ?_⟩
  refine ⟨_, execFX33_of_le x (by omega), rfl, ?_, ?_, ?_, fun a ha => ?_⟩
  · exact toNat_read_decimalDigits s.mem s.i.toNat 0 (s.readV x) (by decide)
  · exact toNat_read_decimalDigits s.mem s.i.toNat 1 (s.readV x) (by decide)
  · exact toNat_read_decimalDigits s.mem s.i.toNat 2 (s.readV x) (by decide)
  · exact Memory.read_writeBlock_outside _ _ _ _ (by simp; omega)

/-- Settles O33: the store is the run of V[0] to V[X] at I. -/
theorem storeRegisterRange : Obligations.StoreRegisterRange := by
  intro x s
  refine ⟨decodeWord_encode (i := .opFX55 x) rfl,
    fun hbad => withRange_base_of_bad (by omega) (by omega), fun hok => ?_⟩
  have hexec := execFX55_of_le x (s := s) (by omega)
  refine ⟨_, hexec, rfl, fun r hr => read_of_execFX55 hexec hr, fun a ha => ?_⟩
  exact Memory.read_writeBlock_outside _ _ _ _ (by simp; omega)

/-- Settles O34: the load reads V[0] to V[X] from the bytes at I. -/
theorem loadRegisterRange : Obligations.LoadRegisterRange := by
  intro x s
  refine ⟨decodeWord_encode (i := .opFX65 x) rfl,
    fun hbad => withRange_base_of_bad (by omega) (by omega), fun hok => ?_⟩
  have hexec := execFX65_of_le x (s := s) (by omega)
  exact ⟨_, hexec, rfl, readV_of_execFX65 hexec⟩

/-- Settles O35: the load reads the bytes the store left, and its range is the store's. -/
theorem storedRegistersLoadBack : Obligations.StoredRegistersLoadBack := by
  intro x s t s' hstore hi hbytes
  have hload := execFX65_of_le x (s := s') (by rw [hi]; exact range_of_execFX55 hstore)
  refine ⟨_, hload, fun r => ?_⟩
  rw [readV_of_execFX65 hload, hi]
  by_cases hr : r ≤ x
  · rw [if_pos hr, if_pos hr, hbytes r hr, read_of_execFX55 hstore hr]
  · rw [if_neg hr, if_neg hr]

/-- Settles O36: PC goes to I, where the store left V0 and V1. -/
theorem storeIsSeenByTheNextFetch : Obligations.StoreIsSeenByTheNextFetch := by
  intro s t x h hx hi hI
  obtain ⟨hl, hp, u, hexec, rfl⟩ := exec_next_of_step h hi
  have hrange := range_of_execFX55 hexec
  rw [beginStep_i] at hrange
  have hpc : u.pc.toNat = s.i.toNat := by
    rw [exec_pc hexec, hI]
    simpa [nextPcOf] using (toNat_pc_add_of_le hp).1
  have hv0 := read_of_execFX55 hexec (r := 0) (Fin.zero_le x)
  have hv1 := read_of_execFX55 hexec (r := 1) (Fin.mk_le_of_le_val hx)
  rw [beginStep_i, beginStep_readV] at hv0 hv1
  have hfetch : u.endStep.fetch = .ok (wordOfBytes (s.readV 0) (s.readV 1)) := by
    rw [fetch_of_le _ (by rw [endStep_pc, hpc]; omega), endStep_pc, endStep_mem, hpc, ← hv0, ← hv1]
    rfl
  refine ⟨hfetch, ?_⟩
  have hloaded : u.endStep.loaded = true := by rwa [endStep_loaded, (exec_frame hexec).loaded, beginStep_loaded]
  unfold step
  rw [if_pos hloaded, hfetch]
  rfl

end Sys2Proof.Laws
end

section
/-! PROOFS. Clearing and drawing (44_display.md R96, R97). -/

namespace Sys2Proof.Laws
open Sys2Proof.Machine

theorem flagByte_eq_one_iff (b : Bool) : flagByte b = 1 ↔ b = true := by cases b <;> decide

theorem flagByte_eq_zero_iff (b : Bool) : flagByte b = 0 ↔ b = false := by cases b <;> decide

/-- Settles O37: the framebuffer after 00E0 is `Framebuffer.clear`. -/
theorem clearTurnsAllPixelsOff : Obligations.ClearTurnsAllPixelsOff :=
  fun _ => ⟨rfl, _, rfl, Framebuffer.pixel_clear, rfl⟩

/-- The pixels that the sprite of a DXYN covers (R97). -/
def coveredBy (x y : Reg) (n : RowCount) (s : State) (px : Fin 64) (py : Fin 32) : Prop :=
  spriteCovers s.mem s.i.toNat n.val (s.readV x).toNat (s.readV y).toNat px py

/-- What a completed DXYN has done: the covered pixels are inverted, and VF is a flag that tells whether one of them was on. -/
structure Drawn (x y : Reg) (n : RowCount) (s t : State) : Prop where
  pixel : ∀ px py, t.fb.pixel px py = true ↔ (s.fb.pixel px py = true ↔ ¬coveredBy x y n s px py)
  hit : (∃ px py, s.fb.pixel px py = true ∧ coveredBy x y n s px py) → t.readV 15 = 1
  miss : (¬∃ px py, s.fb.pixel px py = true ∧ coveredBy x y n s px py) → t.readV 15 = 0

theorem execDXYN_drawn {x y : Reg} {n : RowCount} {s t : State} (h : execDXYN x y n s = .next t) : Drawn x y n s t := by
  obtain ⟨hpixel, hcollision⟩ :=
    drawSprite_spec s.fb s.mem s.base n.val (s.readV x).toNat (s.readV y).toNat (by have := n.isLt; omega)
  obtain rfl := Host.Outcome.next.inj (body_of_withRange_next h)
  refine ⟨hpixel, fun hhit => ?_, fun hmiss => ?_⟩
  · exact (State.readV_writeV s vf 15 _).trans ((flagByte_eq_one_iff _).mpr (hcollision.mpr hhit))
  · exact (State.readV_writeV s vf 15 _).trans
      ((flagByte_eq_zero_iff _).mpr (Bool.eq_false_iff.mpr fun hc => hmiss (hcollision.mp hc)))

/-- DXYN with its rows in memory completes. -/
theorem execDXYN_of_le (x y : Reg) {n : RowCount} {s : State} (h : n.val = 0 ∨ s.i.toNat + n.val ≤ 4096) :
    ∃ t, execDXYN x y n s = .next t :=
  ⟨_, withRange_of_ok _ _ _ h⟩

/-- Settles O38: the framebuffer and VF are those of `Drawn`, and the rest is the frame. -/
theorem drawInvertsCoveredPixels : Obligations.DrawInvertsCoveredPixels := by
  intro x y n s
  refine ⟨decodeWord_encode (i := .opDXYN x y n) rfl, fun hn hbad => withRange_base_of_bad hn (by omega), fun hok => ?_⟩
  obtain ⟨t, hexec⟩ := execDXYN_of_le x y (n := n) (s := s) (by omega)
  obtain ⟨hpixel, hhit, hmiss⟩ := execDXYN_drawn hexec
  refine ⟨t, hexec, hpixel, hhit, hmiss, fun r hr => ?_, ?_⟩
  · exact (exec_frame (i := .opDXYN x y n) hexec).v r (by simpa [writesOf] using hr)
  · obtain rfl := Host.Outcome.next.inj (body_of_withRange_next hexec)
    rfl

/-! ### Drawing twice (R98) -/

/-- The pixels covered depend on I, on the two coordinates and on the bytes of the sprite. -/
theorem coveredBy_congr {x y : Reg} {n : RowCount} {s s' : State} (hi : s'.i = s.i) (hx : s'.readV x = s.readV x)
    (hy : s'.readV y = s.readV y) (hbytes : ∀ r < n.val, s'.mem.read (s.i.toNat + r) = s.mem.read (s.i.toNat + r))
    (px : Fin 64) (py : Fin 32) : coveredBy x y n s' px py ↔ coveredBy x y n s px py := by
  unfold coveredBy spriteCovers
  rw [hi, hx, hy]
  refine exists_congr fun r => and_congr_right fun hr => ?_
  rw [hbytes r hr]

/-- A covered pixel is on after a drawing exactly when it was off before. -/
theorem Drawn.on_and_covered_iff {x y : Reg} {n : RowCount} {s t : State} (h : Drawn x y n s t) (px : Fin 64) (py : Fin 32) :
    t.fb.pixel px py = true ∧ coveredBy x y n s px py ↔ s.fb.pixel px py = false ∧ t.fb.pixel px py = true := by
  rw [h.pixel, ← Bool.not_eq_true]
  tauto

/-- A second drawing of the same pixels, on the framebuffer the first left, restores the framebuffer of before. -/
theorem Drawn.fb_of_twice {x y : Reg} {n : RowCount} {s t s' u : State} (h : Drawn x y n s t) (h' : Drawn x y n s' u)
    (hfb : s'.fb = t.fb) (hcov : ∀ px py, coveredBy x y n s' px py ↔ coveredBy x y n s px py) : u.fb = s.fb := by
  refine Framebuffer.ext_pixel fun px py => Bool.eq_iff_iff.mpr ?_
  rw [h'.pixel, hcov, hfb, h.pixel]
  tauto

/-- VF after the second drawing tells whether the first turned a pixel on. -/
theorem Drawn.vf_of_twice {x y : Reg} {n : RowCount} {s t s' u : State} (h : Drawn x y n s t) (h' : Drawn x y n s' u)
    (hfb : s'.fb = t.fb) (hcov : ∀ px py, coveredBy x y n s' px py ↔ coveredBy x y n s px py) :
    (u.readV 15 = 1 ↔ ∃ px py, s.fb.pixel px py = false ∧ t.fb.pixel px py = true) ∧
      (u.readV 15 = 0 ∨ u.readV 15 = 1) := by
  obtain ⟨-, hhit, hmiss⟩ := h'
  simp only [hcov, hfb, h.on_and_covered_iff] at hhit hmiss
  by_cases hon : ∃ px py, s.fb.pixel px py = false ∧ t.fb.pixel px py = true
  · exact ⟨iff_of_true (hhit hon) hon, .inr (hhit hon)⟩
  · have hvf := hmiss hon
    exact ⟨iff_of_false (by rw [hvf]; decide) hon, .inl hvf⟩

/-- Settles O39: the second drawing covers the same pixels; with X and Y not F the first leaves all it reads. -/
theorem drawingTwiceRestoresTheFramebuffer : Obligations.DrawingTwiceRestoresTheFramebuffer := by
  intro x y n s t hexec
  have hdrawn := execDXYN_drawn hexec
  refine ⟨fun s' u hfb hi hx hy hbytes hexec' => ?_, fun hx hy => ?_⟩
  · have hcov := coveredBy_congr hi hx hy hbytes
    have hdrawn' := execDXYN_drawn hexec'
    exact ⟨hdrawn.fb_of_twice hdrawn' hfb hcov, hdrawn.vf_of_twice hdrawn' hfb hcov⟩
  · have hframe := exec_frame hexec
    have hi : t.i = s.i := hframe.i (by simp [writesOf])
    have hmem : t.mem = s.mem := hframe.mem (by simp [writesOf])
    have hcov := coveredBy_congr (n := n) hi (hframe.v x (by simpa [writesOf] using hx))
      (hframe.v y (by simpa [writesOf] using hy)) (by simp [hmem])
    obtain ⟨u, hexec'⟩ := execDXYN_of_le x y (n := n) (s := t) (by rw [hi]; exact range_of_withRange_next hexec)
    exact ⟨u, hexec', hdrawn.fb_of_twice (execDXYN_drawn hexec') rfl hcov⟩

end Sys2Proof.Laws
end

section
/-! PROOFS. Runs of any number of steps. -/

namespace Sys2Proof.Laws
open Sys2Proof.Machine

/-! ### Induction along a run -/

/-- A run of one step more that came to a state took a first step. -/
theorem run_succ_next {n : Nat} {s t : State} (h : Host.Core.run core (n + 1) s = .next t) :
    ∃ u, step s = .next u ∧ Host.Core.run core n u = .next t := by
  cases hstep : step s with
  | next u =>
    rw [run_of_next n s u hstep] at h
    exact ⟨u, rfl, h⟩
  | fault f =>
    rw [run_of_fault n s f hstep] at h
    cases h
  | refused r =>
    rw [run_of_refused n s r hstep] at h
    cases h

theorem run_one (s : State) : Host.Core.run core 1 s = step s := by
  cases hstep : step s with
  | next u => exact run_of_next 0 s u hstep
  | fault f => exact run_of_fault 0 s f hstep
  | refused r => exact run_of_refused 0 s r hstep

/-- A run that came to `t`, and then one step more. -/
theorem run_succ_of_run {n : Nat} {s t : State} (h : Host.Core.run core n s = .next t) :
    Host.Core.run core (n + 1) s = step t := by
  induction n generalizing s with
  | zero =>
    obtain rfl := Host.Outcome.next.inj h
    exact run_one s
  | succ n ih =>
    obtain ⟨u, hstep, hrun⟩ := run_succ_next h
    rw [run_of_next _ s u hstep]
    exact ih hrun

/-- A run goes on for `n` steps when a property of the number of steps and the state holds at the start and each step completes and
keeps it. -/
theorem run_of_invariant {P : Nat → State → Prop} {s : State} {n : Nat} (hzero : P 0 s)
    (hstep : ∀ k < n, ∀ t, P k t → ∃ u, step t = .next u ∧ P (k + 1) u) :
    ∃ t, Host.Core.run core n s = .next t ∧ P n t := by
  induction n with
  | zero => exact ⟨s, rfl, hzero⟩
  | succ n ih =>
    obtain ⟨t, hrun, ht⟩ := ih fun k hk => hstep k (by omega)
    obtain ⟨u, hu, hPu⟩ := hstep n (by omega) t ht
    exact ⟨u, (run_succ_of_run hrun).trans hu, hPu⟩

/-- A property that every step keeps holds after every run. -/
theorem run_keeps {P : State → Prop} (hstep : ∀ s t, P s → step s = .next t → P t) {n : Nat} {s t : State} (hs : P s)
    (hrun : Host.Core.run core n s = .next t) : P t := by
  induction n generalizing s with
  | zero =>
    obtain rfl := Host.Outcome.next.inj hrun
    exact hs
  | succ n ih =>
    obtain ⟨u, hone, hrest⟩ := run_succ_next hrun
    exact ih (hstep s u hs hone) hrest

/-! ### `reset()` after a run (70_reset_and_hazards.md R126, decision D26) -/

/-- What `reset()` uses of a state, which no step changes. -/
structure SameImage (s t : State) : Prop where
  romImg : t.romImg = s.romImg
  loaded : t.loaded = s.loaded
  font : t.font = s.font

theorem step_sameImage {s t u : State} (h : SameImage s t) (hstep : step t = .next u) : SameImage s u := by
  obtain ⟨-, -, v, hexec, rfl⟩ := exec_next_of_step hstep rfl
  obtain ⟨hrom, hloaded, hfont⟩ := h
  have hframe := exec_frame hexec
  refine ⟨?_, ?_, ?_⟩
  · rw [endStep_romImg, hframe.romImg, beginStep_romImg, hrom]
  · rw [endStep_loaded, hframe.loaded, beginStep_loaded, hloaded]
  · rw [endStep_font, hframe.font, beginStep_font, hfont]

/-- Settles O55: a run leaves the retained image and the font, which is all a load takes besides the fields that go on. -/
theorem resetUndoesEveryRun : Obligations.ResetUndoesEveryRun := by
  intro s t rom n hlen hrun
  rw [load_of_le hlen] at hrun
  obtain ⟨hrom, hloaded, hfont⟩ := run_keeps (P := SameImage (s.loadedWith rom)) (fun _ _ => step_sameImage)
    ⟨rfl, rfl, rfl⟩ hrun
  have hreset : t.hostReset = ⟨t.loadedWith rom, none⟩ := by
    obtain ⟨hl, -⟩ | ⟨_, hreset⟩ := hostReset_cases t
    · rw [hl] at hloaded
      cases hloaded
    · rw [hreset, hrom]
      exact load_of_le hlen
  rw [hreset, load_of_le hlen]
  refine ⟨rfl, ?_⟩
  have hfont' : t.font = s.font := hfont
  unfold State.loadedWith
  rw [hfont']

/-! ### Steps that do the work of the cycle alone -/

/-- `s` with the pieces that a step writes around its instruction taken from `t`: PC, WAIT, the timers, the keypad input and the
outcome flags. -/
def withCycleOf (s t : State) : State :=
  { s with pc := t.pc, wait := t.wait, dt := t.dt, st := t.st, keys := t.keys, keyWrites := t.keyWrites, out := t.out }

theorem withCycleOf_beginStep (s t : State) : withCycleOf s.beginStep t = withCycleOf s t := by
  rw [beginStep_eq]
  rfl

/-- `t` is `s` after `n` steps that wrote nothing but the pieces of `withCycleOf`, with the timers run down. -/
structure Cycled (s : State) (n : Nat) (t : State) : Prop where
  dt : t.dt.toNat = s.dt.toNat - n
  st : t.st.toNat = s.st.toNat - n
  rest : t = withCycleOf s t

theorem cycled_zero (s : State) : Cycled s 0 s := ⟨rfl, rfl, rfl⟩

section
variable {s t : State} {n : Nat}

theorem Cycled.mem (h : Cycled s n t) : t.mem = s.mem := by
  rw [h.rest]
  rfl

theorem Cycled.loaded (h : Cycled s n t) : t.loaded = s.loaded := by
  rw [h.rest]
  rfl

/-- One more such step, whose execute phase gave `u`. -/
theorem Cycled.succ {u : State} (h : Cycled s n t) (hdt : u.dt = t.beginStep.dt) (hst : u.st = t.beginStep.st)
    (hrest : u = withCycleOf t.beginStep u) : Cycled s (n + 1) u.endStep where
  dt := by
    rw [endStep_dt, toNat_tickTimer, hdt, beginStep_dt, h.dt]
    omega
  st := by
    rw [endStep_st, toNat_tickTimer, hst, beginStep_st, h.st]
    omega
  rest :=
    calc u.endStep
      _ = withCycleOf u u.endStep := rfl
      _ = withCycleOf (withCycleOf t.beginStep u) u.endStep := congrArg (withCycleOf · u.endStep) hrest
      _ = withCycleOf t u.endStep := withCycleOf_beginStep t u.endStep
      _ = withCycleOf (withCycleOf s t) u.endStep := congrArg (withCycleOf · u.endStep) h.rest
      _ = withCycleOf s u.endStep := rfl

end

/-! ### A jump to itself -/

/-- NNN of an instruction that names its own address is PC. -/
theorem addrWord_eq_pc {s : State} {nnn : Addr12} (h : s.pc.toNat = nnn.toNat) : addrWord nnn = s.pc :=
  BitVec.eq_of_toNat_eq ((toNat_addrWord nnn).trans h.symm)

/-- The state after `n` steps of a jump to itself. -/
structure JumpLoop (s : State) (n : Nat) (t : State) : Prop where
  cycled : Cycled s n t
  pc : t.pc = s.pc
  wait : t.wait = s.wait

theorem JumpLoop.step_next {s t : State} {nnn : Addr12} {n : Nat} (hl : s.loaded = true) (hnnn : s.pc.toNat = nnn.toNat)
    (hp : s.pc.toNat ≤ 4094) (hword : s.mem.read s.pc.toNat ++ s.mem.read (s.pc.toNat + 1) = 0x1#4 ++ nnn)
    (h : JumpLoop s n t) : ∃ u, step t = .next u ∧ JumpLoop s (n + 1) u := by
  obtain ⟨hcycled, hpc, hwait⟩ := h
  have hi : decodeWord (t.mem.read t.pc.toNat ++ t.mem.read (t.pc.toNat + 1)) = .op1NNN nnn := by
    rw [hcycled.mem, hpc, hword]
    exact decodeWord_encode (i := .op1NNN nnn) rfl
  refine ⟨_, step_of_exec_next (by rw [hcycled.loaded, hl]) (by rw [hpc]; exact hp) hi rfl, hcycled.succ rfl rfl rfl, ?_, ?_⟩
  · exact addrWord_eq_pc hnnn
  · simp [hwait]

/-- Settles O21: the jump writes PC with the value it has. -/
theorem jumpToSelfLoopsWhileTimersRunDown : Obligations.JumpToSelfLoopsWhileTimersRunDown := by
  intro s nnn hl hnnn hp hword n
  obtain ⟨t, hrun, hcycled, hpc, hwait⟩ := run_of_invariant (P := JumpLoop s) (n := n) ⟨cycled_zero s, rfl, rfl⟩
    fun k _ t ht => ht.step_next hl hnnn hp hword
  refine ⟨t, hrun, hpc, hcycled.dt, hcycled.st, ?_⟩
  rw [hwait, hcycled.rest]
  exact ⟨rfl, rfl, rfl, rfl, rfl, rfl, rfl⟩

/-! ### A core that waits for a key (45_keypad_timers.md R102, decisions D10 and D11) -/

/-- No key is pressed in any snapshot to come: those of the pending writes, and after them the vector written last (decision
D22). -/
structure NoKeyComes (s : State) : Prop where
  last : s.keyWrites = [] → ∀ k : Fin 16, s.keys[k] = false
  pending : ∀ keys ∈ s.keyWrites, ∀ k : Fin 16, keys[k] = false

theorem NoKeyComes.nextKeys {s : State} (h : NoKeyComes s) : ∀ k : Fin 16, s.nextKeys[k] = false := by
  cases hwrites : s.keyWrites with
  | nil =>
    rw [nextKeys_of_nil hwrites]
    exact h.last hwrites
  | cons keys rest =>
    rw [nextKeys_of_cons hwrites]
    exact h.pending keys (by simp [hwrites])

/-- After a step whose snapshot had no key, none comes either. -/
theorem NoKeyComes.of_step {s t : State} (h : NoKeyComes s) (hkeys : t.keys = s.nextKeys)
    (hwrites : t.keyWrites = s.keyWrites.tail) : NoKeyComes t where
  last := fun _ => by
    rw [hkeys]
    exact h.nextKeys
  pending := fun keys hmem => h.pending keys (List.mem_of_mem_tail (hwrites ▸ hmem))

/-- A core that has waited at an FX0A for `n` steps. -/
structure Waiting (s : State) (n : Nat) (t : State) : Prop where
  cycled : Cycled s n t
  pc : t.pc = s.pc
  wait : n > 0 → t.wait = true
  noKey : NoKeyComes t

theorem Waiting.step_next {s t : State} {x : Reg} {n : Nat} (hl : s.loaded = true) (hp : s.pc.toNat ≤ 4094)
    (hi : decodeWord (s.mem.read s.pc.toNat ++ s.mem.read (s.pc.toNat + 1)) = .opFX0A x) (h : Waiting s n t) :
    ∃ u, step t = .next u ∧ Waiting s (n + 1) u := by
  obtain ⟨hcycled, hpc, -, hnoKey⟩ := h
  rw [← hcycled.mem, ← hpc] at hi
  have hexec := execFX0A_of_released x (s := t.beginStep) (by rw [beginStep_keys]; exact hnoKey.nextKeys)
  refine ⟨_, step_of_exec_next (by rw [hcycled.loaded, hl]) (by rw [hpc]; exact hp) hi hexec, hcycled.succ rfl rfl rfl, ?_,
    fun _ => rfl, hnoKey.of_step (by simp) (by simp)⟩
  simp [hpc]

/-- Settles O44: FX0A with no key pressed writes WAIT alone, and the next snapshot has no key again. -/
theorem waitingStepsChangeOnlyTimers : Obligations.WaitingStepsChangeOnlyTimers := by
  intro s x hl hp hi hlast hpending n hn
  obtain ⟨t, hrun, hcycled, hpc, hwait, -⟩ := run_of_invariant (P := Waiting s) (n := n)
    ⟨cycled_zero s, rfl, nofun, hlast, hpending⟩ fun k _ t ht => ht.step_next hl hp hi
  have hrest := hcycled.rest
  unfold withCycleOf at hrest
  rw [hpc, hwait hn] at hrest
  exact ⟨t, hrun, hcycled.dt, hcycled.st, hrest⟩

/-! ### A call of its own address -/

/-- The state after `n` steps of a call of its own address. -/
structure CallLoop (s : State) (n : Nat) (t : State) : Prop where
  pc : t.pc = s.pc
  sp : t.sp.val = s.sp.val + n
  stk : ∀ j : Fin 16, s.sp.val ≤ j.val → j.val < s.sp.val + n → t.stk[j].toNat = s.pc.toNat + 2
  mem : t.mem = s.mem
  loaded : t.loaded = s.loaded

theorem callLoop_zero (s : State) : CallLoop s 0 s where
  pc := rfl
  sp := rfl
  stk := fun j h h' => by omega
  mem := rfl
  loaded := rfl

section
variable {s t : State} {nnn : Addr12} {n : Nat} (hl : s.loaded = true) (hnnn : s.pc.toNat = nnn.toNat)
  (hp : s.pc.toNat ≤ 4094) (hword : s.mem.read s.pc.toNat ++ s.mem.read (s.pc.toNat + 1) = 0x2#4 ++ nnn)

include hword in
theorem CallLoop.decode (h : CallLoop s n t) :
    decodeWord (t.mem.read t.pc.toNat ++ t.mem.read (t.pc.toNat + 1)) = .op2NNN nnn := by
  rw [h.mem, h.pc, hword]
  exact decodeWord_encode (i := .op2NNN nnn) rfl

include hl hnnn hp hword in
theorem CallLoop.step_next (h : CallLoop s n t) (hsp : s.sp.val + n < 16) :
    ∃ u, step t = .next u ∧ CallLoop s (n + 1) u := by
  have hsp' : t.beginStep.sp.val < 16 := by rw [beginStep_sp, h.sp]; exact hsp
  refine ⟨_, step_of_exec_next (by rw [h.loaded, hl]) (by rw [h.pc]; exact hp) (h.decode hword)
    (exec2NNN_of_lt nnn t.beginStep hsp'), ?_⟩
  constructor
  case pc => exact addrWord_eq_pc hnnn
  case sp => simp [h.sp, Nat.add_assoc]
  case stk =>
    intro j hj hj'
    by_cases hnew : j.val = s.sp.val + n
    · simpa [h.sp, hnew, h.pc] using (toNat_pc_add_of_le hp).1
    · simpa [h.sp, Vector.getElem_set_ne, Ne.symm hnew] using h.stk j hj (by omega)
  case mem => simp [h.mem]
  case loaded => simp [h.loaded]

include hl hp hword in
theorem CallLoop.step_overflow (h : CallLoop s n t) (hsp : s.sp.val + n = 16) : step t = .fault .stackOverflow :=
  step_of_exec_fault (by rw [h.loaded, hl]) (by rw [h.pc]; exact hp) (h.decode hword)
    (exec2NNN_of_full nnn t.beginStep (by rw [beginStep_sp, h.sp]; exact hsp))

end

/-- Settles O22: up to sixteen entries each step pushes one more, and the next overflows. -/
theorem callToSelfFillsTheStackThenOverflows : Obligations.CallToSelfFillsTheStackThenOverflows := by
  intro s nnn hl hnnn hp hword
  have hrun : ∀ n, s.sp.val + n ≤ 16 → ∃ t, Host.Core.run core n s = .next t ∧ CallLoop s n t := fun n hn =>
    run_of_invariant (callLoop_zero s) fun k hk t ht => ht.step_next hl hnnn hp hword (by omega)
  refine ⟨fun n hn => ?_, ?_⟩
  · obtain ⟨t, hn, ht⟩ := hrun n hn
    exact ⟨t, hn, ht.pc, ht.sp, ht.stk⟩
  · have hsp := s.sp.isLt
    obtain ⟨t, hfull, ht⟩ := hrun (16 - s.sp.val) (by omega)
    rw [show 17 - s.sp.val = 16 - s.sp.val + 1 by omega, run_succ_of_run hfull]
    exact ht.step_overflow hl hp hword (by omega)

/-! ### Zeroed memory (40_cycle.md R66) -/

/-- The state after `n` steps over zeroed memory. -/
structure ZeroRun (s : State) (n : Nat) (t : State) : Prop where
  cycled : Cycled s n t
  pc : t.pc.toNat = s.pc.toNat + 2 * n
  unknown : n > 0 → t.out.unknown = true

theorem ZeroRun.step_next {s t : State} {n : Nat} (hl : s.loaded = true)
    (hzero : ∀ a, s.pc.toNat ≤ a → a < 4096 → s.mem.read a = 0) (h : ZeroRun s n t) (hn : s.pc.toNat + 2 * n < 4095) :
    ∃ u, step t = .next u ∧ ZeroRun s (n + 1) u := by
  obtain ⟨hcycled, hpc, -⟩ := h
  have hp : t.pc.toNat ≤ 4094 := by omega
  have hi : decodeWord (t.mem.read t.pc.toNat ++ t.mem.read (t.pc.toNat + 1)) = .unknown 0x0000 := by
    rw [hcycled.mem, hpc, hzero _ (by omega) (by omega), hzero _ (by omega) (by omega)]
    rfl
  refine ⟨_, step_of_exec_next (by rw [hcycled.loaded, hl]) hp hi rfl, hcycled.succ rfl rfl rfl, ?_, fun _ => rfl⟩
  have hadvance := (toNat_pc_add_of_le hp).1
  rw [endStep_pc, State.advance_pc, State.markUnknown_pc, beginStep_pc]
  omega

/-- Settles O23: each step is one of an unknown word, until the fetch faults at 4096. -/
theorem zeroedMemoryRunsOffTheEnd : Obligations.ZeroedMemoryRunsOffTheEnd := by
  intro s hl hp heven hzero
  have hrun : ∀ n, s.pc.toNat + 2 * n ≤ 4096 → ∃ t, Host.Core.run core n s = .next t ∧ ZeroRun s n t := fun n hn =>
    run_of_invariant ⟨cycled_zero s, rfl, nofun⟩ fun k hk t ht => ht.step_next hl hzero (by omega)
  refine ⟨fun n hn => ?_, ?_⟩
  · obtain ⟨t, hrun, hcycled, hpc, hunknown⟩ := hrun n hn
    refine ⟨t, hrun, hpc, hunknown, ?_⟩
    rw [hcycled.rest]
    exact ⟨rfl, rfl, rfl, rfl, rfl, rfl⟩
  · obtain ⟨t, hend, hcycled, hpc, -⟩ := hrun ((4096 - s.pc.toNat) / 2) (by omega)
    have hpc' : t.pc.toNat = 4096 := by omega
    rw [run_succ_of_run hend, step_of_fetch_fault t (by rw [hcycled.loaded, hl]) (by omega), hpc']
    rfl

end Sys2Proof.Laws
end
